-- ==== Sys2Proof/Word.lean ====
section
/-! DEFINITION. The byte of the links and the numbered names of the part: generators, coils, slots, tags and windows (spec 00 sections 1 and 4). -/

namespace Sys2Proof

/-- A byte of a link (R179), also an order number (R134, R143). -/
abbrev Byte := BitVec 8

/-- A byte as a line carries it after its start bit (R179): bits 0 to 7 the data bits, least significant sent first,
bit 8 the parity bit, bit 9 the stop bit. -/
abbrev LineByte := BitVec 10

/-- A generator G0 to G3. -/
abbrev Gen := Fin 4

/-- A coil number, 8 times the row plus the column (00 section 1.1). -/
abbrev CoilNo := Fin 48

/-- A slot of the Pan Table (R38). -/
abbrev Slot := Fin 8

/-- The tag of a slot; adding 1 wraps from 15 to 0 (R39). -/
abbrev Tag := Fin 16

/-- A Surface Window W0 to W3 (R102). -/
abbrev WindowNo := Fin 4

/-- The generators in generator-number order. -/
def allGens : List Gen := List.finRange 4

/-- The coils in coil-number order. -/
def allCoils : List CoilNo := List.finRange 48

/-- The slots in slot order. -/
def allSlots : List Slot := List.finRange 8

/-- The windows in window-number order. -/
def allWindows : List WindowNo := List.finRange 4

end Sys2Proof
end

