-- ==== Sys2Proof/Config.lean ====
section
/-! DEFINITION. What is fixed for the part (spec 00 section 5) and the model's one free value. -/

namespace Sys2Proof.Config

/-- FREE VALUE (assumption log 3). The spec gives no order for expiries that fall due in the same
millisecond; each choice among those still to be queued is this constant at the next free count.
It has no body: no proof can rest on a value of it. -/
opaque freeChoice : Nat → Nat

/-- Relay switching time in ms (00 section 5, R12). -/
def switchTime : Nat := 15

/-- Stop hold in ms (00 section 5, R153). -/
def stopHold : Nat := 250

/-- The gap timer's value once it has passed 5 ms (R181; assumption log 12). -/
def gapPassed : Nat := 6

/-- The largest LEN of a message (R180). -/
def maxLen : Nat := 248

/-- Room of the Event Queue (R193). -/
def queueRoom : Nat := 16

/-- Room of the Candidate List (R42). -/
def candidateRoom : Nat := 4

/-- Coverage at which a coil qualifies (R30). -/
def qualifyingCoverage : Nat := 4

/-- The minimum confirmable total (R33, R62). -/
def minTotal : Nat := 8

/-- The return radius in quarter-pitches (R50, R62). -/
def returnRadius : Nat := 8

/-- The most a leg may carry, in W (00 section 4, R132). -/
def maxLegPower : Nat := 3600

/-- The highest target cap, in W (R107, R111). -/
def maxCap : Nat := 7400

/-- The highest service debt (R127). -/
def maxDebt : Nat := 15

end Sys2Proof.Config
end

