-- ==== Sys2Proof/Syntax.lean ====
section
/-! DEFINITION. The commands of the block: one constructor of Instr for each row of spec/opcode_table.json. -/

namespace Sys2Proof

/-- The two supply phases (R107). -/
inductive Phase where
  | l1
  | l2
deriving DecidableEq, Repr

/-- The six links (R178). -/
inductive Link where
  | pl
  | gl (g : Gen)
  | sl
deriving DecidableEq, Repr

/-- The pending causes of a bad message, a set drawn from five (R178). -/
structure Causes where
  parity : Bool
  framing : Bool
  length : Bool
  check : Bool
  gap : Bool
deriving DecidableEq, Repr

/-- No cause pending. -/
def Causes.none : Causes := ⟨false, false, false, false, false⟩

/-- The causes of both sets. -/
def Causes.union (a b : Causes) : Causes :=
  ⟨a.parity || b.parity, a.framing || b.framing, a.length || b.length, a.check || b.check, a.gap || b.gap⟩

/-- Whether some cause is pending. -/
def Causes.any (c : Causes) : Bool := c.parity || c.framing || c.length || c.check || c.gap

/-- The commands. A request command stands for a message of the row's KIND with this BODY ending on
this link (R180, R184; assumption log 1). An expiry command stands for the running out of the count
it names (assumption log 4). -/
inductive Instr where
  /-- POWER_ON_RESET: RST held low and then raised, with these RATE1:0 straps (R176). -/
  | powerOnReset (straps : BitVec 2)
  /-- STATUS (R199). -/
  | status (link : Link) (body : List Byte)
  /-- UNKNOWN_KIND: a good message whose KIND is no request kind (R184). -/
  | unknownKind (link : Link) (kind : Byte) (body : List Byte)
  /-- BAD_FRAME: a message ends with these causes pending (R181). -/
  | badFrame (link : Link) (causes : Causes)
  /-- GAP_TIMEOUT: the gap timer of a RECEIVING port passes 5 ms (R181). -/
  | gapTimeout (link : Link)
  /-- REPLY_SENT: the last byte of the reply in hand has been sent (R182). -/
  | replySent (link : Link)
  /-- SET_LEVEL (R89). -/
  | setLevel (link : Link) (body : List Byte)
  /-- SET_TIMER (R91). -/
  | setTimer (link : Link) (body : List Byte)
  /-- HOLD (R92). -/
  | hold (link : Link) (body : List Byte)
  /-- RESUME (R93). -/
  | resume (link : Link) (body : List Byte)
  /-- STOP_ALL (R94). -/
  | stopAll (link : Link) (body : List Byte)
  /-- SET_WINDOW (R103). -/
  | setWindow (link : Link) (body : List Byte)
  /-- PERMIT (R162). -/
  | permit (link : Link) (body : List Byte)
  /-- ENABLE_GENERATORS (R156, R157). -/
  | enableGenerators (link : Link) (body : List Byte)
  /-- CHECK_TEST (R171). -/
  | checkTest (link : Link) (body : List Byte)
  /-- RESTART (R174, R175). -/
  | restart (link : Link) (body : List Byte)
  /-- READ_EVENTS (R195). -/
  | readEvents (link : Link) (body : List Byte)
  /-- READ_PANS (R197). -/
  | readPans (link : Link) (body : List Byte)
  /-- READ_MAP (R198). -/
  | readMap (link : Link) (body : List Byte)
  /-- CONFIGURE_READ: a CONFIGURE that carries only a parameter code (R187). -/
  | configureRead (link : Link) (body : List Byte)
  /-- CONFIGURE_WRITE: a CONFIGURE that carries a parameter code and a value (R187). -/
  | configureWrite (link : Link) (body : List Byte)
  /-- HELLO (R142). -/
  | hello (link : Link) (body : List Byte)
  /-- SWEEP (R26). -/
  | sweep (link : Link) (body : List Byte)
  /-- FETCH (R143). -/
  | fetch (link : Link) (body : List Byte)
  /-- SET_CAP (R111). -/
  | setCap (link : Link) (body : List Byte)
  /-- SHED (R112). -/
  | shed (link : Link) (body : List Byte)
  /-- READ_LOAD (R118). -/
  | readLoad (link : Link) (body : List Byte)
  /-- SWITCH_END: a coil's switch remaining runs out (R13). -/
  | switchEnd (coil : CoilNo)
  /-- LOST_TIME_EXPIRY: a LOST pan's lost remaining runs out (R60). -/
  | lostTimeExpiry (slot : Slot)
  /-- PART_SECOND_ELAPSED: a heating-eligible pan's part-second reaches 1,000 ms (R95). -/
  | partSecondElapsed (slot : Slot)
  /-- TIMER_DONE: a pan timer completes (R96). -/
  | timerDone (slot : Slot)
  /-- BOOST_ENDED: a pan's boost remaining runs out (R97). -/
  | boostEnded (slot : Slot)
  /-- PERMIT_EXPIRED: the permit remaining runs out (R163). -/
  | permitExpired
  /-- SHED_DEADLINE_EXPIRY: a pending shed's deadline remaining runs out (R117). -/
  | shedDeadlineExpiry (phase : Phase)
  /-- LEASE_EXPIRY: the lease of an ISSUED order runs out (R151). -/
  | leaseExpiry (g : Gen)
  /-- YIELD_TIMEOUT: a YIELDING generator's yield timer expires (R152). -/
  | yieldTimeout (g : Gen)
  /-- COLLECTION_EXPIRY: the collection timer of a COMPLETE desk expires (R150). -/
  | collectionExpiry (g : Gen)
  /-- HOLD_END: a STOPPED generator's hold timer expires (R154). -/
  | holdEnd (g : Gen)
  /-- WAIT_CONDITION_CLEARED: the wait condition of a WAITING desk clears (R149). -/
  | waitConditionCleared (g : Gen)
  /-- LINK_BYTE_RECEIVED: a byte arrives on a link (R180, R182). -/
  | linkByteReceived (link : Link) (line : LineByte)
  /-- RST_TAKEN_LOW (R176). -/
  | rstTakenLow
deriving DecidableEq, Repr

/-- The request kinds (R190). -/
inductive ReqKind where
  | status | setLevel | setTimer | hold | resume | stopAll | setWindow | permit | enableGenerators
  | checkTest | restart | readEvents | readPans | readMap | configure
  | hello | sweep | fetch | setCap | shed | readLoad
deriving DecidableEq, Repr

/-- The KIND byte of a request (R190). -/
def ReqKind.code : ReqKind → Byte
  | .status => 0x01
  | .setLevel => 0x11
  | .setTimer => 0x12
  | .hold => 0x13
  | .resume => 0x14
  | .stopAll => 0x15
  | .setWindow => 0x16
  | .permit => 0x17
  | .enableGenerators => 0x18
  | .checkTest => 0x19
  | .restart => 0x1A
  | .readEvents => 0x1B
  | .readPans => 0x1C
  | .readMap => 0x1D
  | .configure => 0x1E
  | .hello => 0x31
  | .sweep => 0x32
  | .fetch => 0x33
  | .setCap => 0x51
  | .shed => 0x52
  | .readLoad => 0x53

/-- Every request kind, in the order of R190's table. -/
def ReqKind.all : List ReqKind :=
  [.status, .setLevel, .setTimer, .hold, .resume, .stopAll, .setWindow, .permit, .enableGenerators,
   .checkTest, .restart, .readEvents, .readPans, .readMap, .configure, .hello, .sweep, .fetch,
   .setCap, .shed, .readLoad]

/-- The request kind a KIND byte names; none for an unknown kind, the reply kinds among them (R184). -/
def ReqKind.ofCode (b : Byte) : Option ReqKind := ReqKind.all.find? fun k => k.code = b

end Sys2Proof
end

