-- ==== Sys2Proof/WellFormed.lean ====
section
/-! DEFINITION. Which command terms are commands of the part: a body fits a frame, a bad frame has a cause, a switch ends on a coil with a relay. -/

namespace Sys2Proof

/-- A BODY fits a message: LEN is 0 to 248 (R180). -/
def bodyFits (body : List Byte) : Bool := decide (body.length ≤ Config.maxLen)

/-- The coil has a crossover relay: its column is 1 to 6 (R2). -/
def hasRelay (c : CoilNo) : Bool := decide (c.val % 8 ≠ 0 ∧ c.val % 8 ≠ 7)

/-- The causes of a message that ends as bad by its bytes: at least one, GAP not among them, and
LENGTH never together with CHECK, since LENGTH ends the message after its LEN byte (R181). -/
def frameCausesFit (c : Causes) : Bool := c.any && !c.gap && !(c.length && c.check)

/-- The command can be given to the part. -/
def Instr.wellFormed : Instr → Bool
  | .powerOnReset _ => true
  | .status _ body => bodyFits body
  | .unknownKind _ kind body => bodyFits body && (ReqKind.ofCode kind).isNone
  | .badFrame _ causes => frameCausesFit causes
  | .gapTimeout _ => true
  | .replySent _ => true
  | .setLevel _ body => bodyFits body
  | .setTimer _ body => bodyFits body
  | .hold _ body => bodyFits body
  | .resume _ body => bodyFits body
  | .stopAll _ body => bodyFits body
  | .setWindow _ body => bodyFits body
  | .permit _ body => bodyFits body
  | .enableGenerators _ body => bodyFits body
  | .checkTest _ body => bodyFits body
  | .restart _ body => bodyFits body
  | .readEvents _ body => bodyFits body
  | .readPans _ body => bodyFits body
  | .readMap _ body => bodyFits body
  | .configureRead _ body => bodyFits body && decide (body.length ≠ 3)
  | .configureWrite _ body => bodyFits body && decide (body.length = 3)
  | .hello _ body => bodyFits body
  | .sweep _ body => bodyFits body
  | .fetch _ body => bodyFits body
  | .setCap _ body => bodyFits body
  | .shed _ body => bodyFits body
  | .readLoad _ body => bodyFits body
  | .switchEnd c => hasRelay c
  | .lostTimeExpiry _ => true
  | .partSecondElapsed _ => true
  | .timerDone _ => true
  | .boostEnded _ => true
  | .permitExpired => true
  | .shedDeadlineExpiry _ => true
  | .leaseExpiry _ => true
  | .yieldTimeout _ => true
  | .collectionExpiry _ => true
  | .holdEnd _ => true
  | .waitConditionCleared _ => true
  | .linkByteReceived _ _ => true
  | .rstTakenLow => true

end Sys2Proof
end

