-- ==== Sys2Proof/Decode.lean ====
section
/-! DEFINITION. Commands spelled by a word of the table's bits: spec/opcode_table.json gives no row any bits, so no word spells a command. -/

namespace Sys2Proof

/-- The command that a word of nbits bits spells by the table's bits. No row of the table has bits
(its commands are events and link messages), so the answer is none for every word. -/
def decodeTableWord (_nbits _w : Nat) : Option Instr := none

end Sys2Proof
end

