-- ==== Sys2Proof/Machine/State.lean ====
section
/-! DEFINITION. The state of the SC-48 as plain data, and the state after power-on reset (R176). -/

namespace Sys2Proof.Machine

/-- No event stops the part, so there is no fault: a failed check enters SAFE, which is a next state (R166). -/
inductive Fault : Type
deriving DecidableEq, Repr

/-- Reasons to refuse a command. No meaning answers with one. -/
inductive Refusal where
  /-- Raised by the dispatcher for a command that has no meaning yet; safe. -/
  | notModelled (mnemonic : String)
deriving DecidableEq, Repr

/-! ## Coil Map (chapter 1) -/

/-- A relay position: the driver field of a coil (R1, R2). -/
inductive Position where
  | home
  | alternate
deriving DecidableEq, Repr

/-- A pan: a slot and a tag together (01 section 1.5). -/
structure PanId where
  slot : Slot
  tag : Tag
deriving DecidableEq, Repr

/-- The state of a coil with the fields each state carries (R1, R3). A count of 0 has run out, and its
SWITCH_END has still to be taken. -/
inductive CoilState where
  /-- OFF; the switch remaining while the relay still moves to rest. -/
  | off (moving : Option Nat)
  /-- FREE. -/
  | free
  /-- CLAIMED by its owner. -/
  | claimed (owner : PanId)
  /-- DRIVEN in the driver's order of this number. -/
  | driven (owner : PanId) (order : Byte)
  /-- RELEASING: still in the order; a new owner when one has been gained; the off-pending mark. -/
  | releasing (owner : Option PanId) (order : Byte) (offPending : Bool)
  /-- TRANSFER: in the order, to move to the planned driver at its release. -/
  | transfer (owner : PanId) (order : Byte) (planned : Position)
  /-- SWITCHING, with the switch remaining in ms. -/
  | switching (owner : Option PanId) (remaining : Nat)
deriving DecidableEq, Repr

/-- A coil record (R1). Home and alternate generator are fixed by the coil number (R2). -/
structure Coil where
  driver : Position
  /-- Sixteenths; none is NO DATA. -/
  coverage : Option (Fin 16)
  hot : Bool
  fault : Bool
  state : CoilState
  /-- The stored check code matches the record (R19; assumption log 5). -/
  codeOk : Bool
deriving DecidableEq, Repr

/-- A coil after power-on reset (R18). -/
def Coil.initial : Coil := ⟨.home, none, false, false, .off none, true⟩

/-! ## Pan Table, candidates (chapter 3) -/

/-- A slot's state (R40). -/
inductive PanState where
  | free
  | present
  | lost
deriving DecidableEq, Repr

/-- A centre in quarter-pitch units (R34). -/
structure Centre where
  col : Nat
  row : Nat
deriving DecidableEq, Repr

/-- Who set a level (R38). -/
inductive LevelSource where
  | panel
  | window
deriving DecidableEq, Repr

/-- A pan's plan (R68, R69). -/
inductive Plan where
  | single (g : Gen)
  | split
deriving DecidableEq, Repr

/-- A pan record (R38). -/
structure Pan where
  tag : Tag
  state : PanState
  /-- In coil-number order. -/
  footprint : List CoilNo
  centre : Option Centre
  total : Nat
  level : Fin 14
  source : LevelSource
  window : Option WindowNo
  held : Bool
  barred : Bool
  /-- The SPLIT flag. -/
  split : Bool
  /-- The short mask, one bit a generator. -/
  short : BitVec 4
  /-- The unserved mask, one bit a generator. -/
  unserved : BitVec 4
  plan : Option Plan
  debt : Nat
  /-- Whole seconds; none is NONE. -/
  timer : Option Nat
  autoHold : Bool
  holdOnLift : Bool
  /-- Boost remaining in ms. -/
  boost : Option Nat
  /-- Lost remaining in ms. -/
  lostRemaining : Option Nat
  /-- Thousandths of a watt-second (R145; assumption log 17). -/
  energy : Nat
  codeOk : Bool
deriving DecidableEq, Repr

/-- The values of a FREE slot (R40), with this tag and a valid code. -/
def Pan.freed (tag : Tag) : Pan where
  tag := tag
  state := .free
  footprint := []
  centre := none
  total := 0
  level := 0
  source := .panel
  window := none
  held := false
  barred := false
  split := false
  short := 0
  unserved := 0
  plan := none
  debt := 0
  timer := none
  autoHold := false
  holdOnLift := false
  boost := none
  lostRemaining := none
  energy := 0
  codeOk := true

/-- An entry of the Candidate List (R42). -/
structure Candidate where
  footprint : List CoilNo
  centre : Centre
  total : Nat
  count : Nat
  refusalPosted : Bool
deriving DecidableEq, Repr

/-! ## Surface Windows, level table, configuration (chapters 5, 10) -/

/-- A window's mode (R102). -/
inductive WindowMode where
  | off
  | preset
  | exclude
deriving DecidableEq, Repr

/-- A window record (R102). -/
structure Window where
  mode : WindowMode
  colBase : Nat
  colLimit : Nat
  rowBase : Nat
  rowLimit : Nat
  preset : Fin 13
deriving DecidableEq, Repr

/-- A window after power-on reset (R102). -/
def Window.initial : Window := ⟨.off, 0, 7, 0, 5, 0⟩

/-- The level table: the entry of level n + 1 at index n, BOOST last (R90). -/
structure LevelTable where
  watts : Vector Nat 13
  codeOk : Bool
deriving DecidableEq, Repr

/-- The configured values (R188) other than the level table and the mapping. -/
structure Params where
  /-- s -/
  lostTime : Nat
  /-- ms -/
  orderLease : Nat
  /-- ms -/
  yieldTimeout : Nat
  /-- ms -/
  collectionTime : Nat
  repeatLimit : Nat
  confirmCount : Nat
  /-- s -/
  boostDuration : Nat
  /-- ms -/
  shedDeadline : Nat
deriving DecidableEq, Repr

/-- The defaults (R188). -/
def Params.initial : Params := ⟨6, 2000, 50, 100, 64, 3, 300, 2000⟩

/-! ## Phase Budget (chapter 6) -/

/-- A pending shed: the deadline named and the deadline remaining, in ms (R107). -/
structure ShedTimes where
  deadline : Nat
  remaining : Nat
deriving DecidableEq, Repr

/-- A phase account (R107). -/
structure Account where
  target : Nat
  committed : Nat
  load : Nat
  /-- none is shed state NONE. -/
  shed : Option ShedTimes
deriving DecidableEq, Repr

/-- An account after power-on reset (R120). -/
def Account.initial : Account := ⟨3680, 3680, 0, none⟩

/-! ## Orders, desks, Allocator (chapters 7, 8) -/

/-- An inverter of a generator (00 section 3). -/
inductive Inverter where
  | a
  | b
deriving DecidableEq, Repr

/-- A leg of an order (R122). The split mark is set when a sync group is held (R72). -/
structure Leg where
  inverter : Inverter
  pan : PanId
  /-- In coil-number order. -/
  coils : List CoilNo
  power : Nat
  split : Bool
  sync : Fin 8
deriving DecidableEq, Repr

/-- An order's state, with the issue time while ISSUED (R122). -/
inductive OrderState where
  | built
  | issued (time : Nat)
deriving DecidableEq, Repr

/-- An order; its generator is the one whose desk holds it (R122). -/
structure Order where
  number : Byte
  state : OrderState
  legs : List Leg
  charge : Nat
  codeOk : Bool
deriving DecidableEq, Repr

/-- A generator's state (R140). -/
inductive GenState where
  | absent
  | joined
  | ordered
  | yielding
  | stopped
  | disabled
deriving DecidableEq, Repr

/-- The desk state with its fetch entry (R141). -/
inductive DeskState where
  | empty
  | waiting (entry : Byte)
  | complete (entry : Byte)
deriving DecidableEq, Repr

/-- What a generator becomes when its hold ends (R141). -/
inductive HoldEnd where
  | joined
  | absent
deriving DecidableEq, Repr

/-- What the Order Desk keeps for one generator (R140, R141). A timer is none while idle and the
milliseconds left while running; 0 has run out, and its expiry has still to be taken. -/
structure Desk where
  state : GenState
  desk : DeskState
  repeats : Nat
  order : Option Order
  lastConfirmed : Byte
  lease : Option Nat
  yield : Option Nat
  collection : Option Nat
  hold : Option Nat
  holdEnd : HoldEnd
deriving DecidableEq, Repr

/-- A desk after power-on reset (R160); the hold end is a DESIGN CHOICE (assumption log 15). -/
def Desk.initial : Desk := ⟨.absent, .empty, 0, none, 0, none, none, none, none, .joined⟩

/-- An entry of an inverter memory (R129). -/
structure MemoryEntry where
  pan : PanId
  inverter : Inverter
deriving DecidableEq, Repr

/-- The Allocator's own state for one generator (R139). -/
structure Alloc where
  lastNumber : Byte
  memory : List MemoryEntry
deriving DecidableEq, Repr

/-- The Allocator's state after power-on reset (R139). -/
def Alloc.initial : Alloc := ⟨0, []⟩

/-! ## Permit, Check Unit, events (chapters 9, 11) -/

/-- The permit, with the permit remaining in ms while RUNNING (R161). -/
inductive Permit where
  | unset
  | running (remaining : Nat)
  | expired
deriving DecidableEq, Repr

/-- The three table marks of CHECK TEST (R171); the six link marks stand in the ports. -/
structure TableMarks where
  coilMap : Bool
  panTable : Bool
  orders : Bool
deriving DecidableEq, Repr

/-- No table mark armed. -/
def TableMarks.clear : TableMarks := ⟨false, false, false⟩

/-- The event kinds (R192, 11 section 11.2). -/
inductive EventKind where
  | panConfirmed | panRefused | panMoved | panLost | panReturned | panGone | levelSetByWindow
  | timerDone | boostEnded | powerReduced | powerRestored | panBarred | panCleared | coilFault
  | generatorJoined | generatorStopped | generatorStarved | shedStarted | shedDone | permitExpired
  | safeEntered
deriving DecidableEq, Repr

/-- The causes of a stop (R153). -/
inductive StopCause where
  | yieldTimeout | orderMismatch | shed | stopAll | disable | restart | safe
deriving DecidableEq, Repr

/-- The tables a SAFE ENTERED event can name (R166). -/
inductive TableName where
  | coilMap | panTable | orders | levelTable
deriving DecidableEq, Repr

/-- The cause field of an event (R193). -/
inductive EventCause where
  | stop (cause : StopCause)
  | phase (p : Phase)
  | table (t : TableName)
  | window (w : WindowNo)
deriving DecidableEq, Repr

/-- The slot of an event, with its tag unless it is a SAFE ENTERED naming a pan record (R192). -/
structure EventPan where
  slot : Slot
  tag : Option Tag
deriving DecidableEq, Repr

/-- An event record (R193). -/
structure Event where
  kind : EventKind
  stamp : Nat
  pan : Option EventPan
  gen : Option Gen
  coil : Option CoilNo
  cause : Option EventCause
deriving DecidableEq, Repr

/-! ## Link Ports (chapter 10) -/

/-- KIND and BODY of a good message. -/
structure Message where
  kind : Byte
  body : List Byte
deriving DecidableEq, Repr

/-- A reply as sent: LEN is the length of the body, and SYNC is fixed (R180, R185). -/
structure Reply where
  kind : Byte
  body : List Byte
  check : Byte
deriving DecidableEq, Repr

/-- The receiver of a port (R178). -/
inductive Receiver where
  | idle
  /-- The bytes from LEN onward, the pending causes, and the ms since the last byte (6 has passed 5). -/
  | receiving (bytes : List Byte) (causes : Causes) (gap : Nat)
  /-- The message in hand (none for a bad one), its pending causes, and the reply being sent. -/
  | inHand (message : Option Message) (causes : Causes) (reply : Reply)
deriving DecidableEq, Repr

/-- A Link Port (R178). -/
structure Port where
  rx : Receiver
  overrun : Bool
  forcedBad : Bool
deriving DecidableEq, Repr

/-- A port after power-on reset (R178). -/
def Port.initial : Port := ⟨.idle, false, false⟩

/-! ## The whole part -/

/-- The state of the SC-48, with the queue of commands waiting. -/
structure State where
  /-- RST is held low (R176). -/
  rstLow : Bool
  /-- The RATE straps as sampled when RST rose (R179). -/
  rate : BitVec 2
  /-- Milliseconds since power-on reset. -/
  now : Nat
  coils : Vector Coil 48
  pans : Vector Pan 8
  /-- Each slot's part-second, in ms (R95). -/
  partSeconds : Vector Nat 8
  candidates : List Candidate
  /-- Front first (R43). -/
  priority : List Slot
  windows : Vector Window 4
  levels : LevelTable
  params : Params
  /-- The phase each generator is mapped to (R110). -/
  phaseOf : Vector Phase 4
  /-- L1, then L2. -/
  accounts : Vector Account 2
  desks : Vector Desk 4
  allocs : Vector Alloc 4
  permit : Permit
  /-- The part is SAFE (R167). -/
  safe : Bool
  marks : TableMarks
  /-- Oldest first (R193). -/
  events : List Event
  /-- The queue's LOST flag. -/
  eventsLost : Bool
  /-- PL, GL0 to GL3, SL. -/
  ports : Vector Port 6
  /-- The commands waiting, first in first out. -/
  pending : List Instr
  /-- How many free choices have been made (assumption log 3, 16). -/
  freeCount : Nat
deriving DecidableEq, Repr

/-- The part when RST has risen with these straps (R176): every block at its power-on values. The
last two arguments are the model's own fields, which no reset of the part touches. -/
def State.powerOn (straps : BitVec 2) (pending : List Instr) (freeCount : Nat) : State where
  rstLow := false
  rate := straps
  now := 0
  coils := Vector.replicate 48 Coil.initial
  pans := Vector.replicate 8 (Pan.freed 0)
  partSeconds := Vector.replicate 8 0
  candidates := []
  priority := []
  windows := Vector.replicate 4 Window.initial
  levels := ⟨#v[100, 200, 300, 450, 600, 800, 1000, 1250, 1500, 1800, 2100, 2500, 3600], true⟩
  params := Params.initial
  phaseOf := #v[.l1, .l1, .l2, .l2]
  accounts := Vector.replicate 2 Account.initial
  desks := Vector.replicate 4 Desk.initial
  allocs := Vector.replicate 4 Alloc.initial
  permit := .unset
  safe := false
  marks := TableMarks.clear
  events := []
  eventsLost := false
  ports := Vector.replicate 6 Port.initial
  pending := pending
  freeCount := freeCount

/-- The part right after power-on reset, nothing waiting. The straps are sampled as 00: DESIGN CHOICE,
assumption log 14. -/
def State.reset : State := State.powerOn 0 [] 0

/-! ## Reading and replacing one record -/

/-- The place of a phase's account. -/
def phaseIndex : Phase → Fin 2
  | .l1 => 0
  | .l2 => 1

/-- The place of a link's port: PL, GL0 to GL3, SL. -/
def linkIndex : Link → Fin 6
  | .pl => 0
  | .gl g => ⟨g.val + 1, by omega⟩
  | .sl => 5

namespace State

def coil (s : State) (c : CoilNo) : Coil := s.coils[c]
def setCoil (s : State) (c : CoilNo) (r : Coil) : State := { s with coils := s.coils.set c r }

def pan (s : State) (n : Slot) : Pan := s.pans[n]
def setPan (s : State) (n : Slot) (p : Pan) : State := { s with pans := s.pans.set n p }

def partSecond (s : State) (n : Slot) : Nat := s.partSeconds[n]
def setPartSecond (s : State) (n : Slot) (ms : Nat) : State := { s with partSeconds := s.partSeconds.set n ms }

def window (s : State) (w : WindowNo) : Window := s.windows[w]
def setWindow (s : State) (w : WindowNo) (x : Window) : State := { s with windows := s.windows.set w x }

def genPhase (s : State) (g : Gen) : Phase := s.phaseOf[g]
def setGenPhase (s : State) (g : Gen) (p : Phase) : State := { s with phaseOf := s.phaseOf.set g p }

def account (s : State) (p : Phase) : Account := s.accounts[phaseIndex p]
def setAccount (s : State) (p : Phase) (a : Account) : State := { s with accounts := s.accounts.set (phaseIndex p) a }

def desk (s : State) (g : Gen) : Desk := s.desks[g]
def setDesk (s : State) (g : Gen) (d : Desk) : State := { s with desks := s.desks.set g d }

def alloc (s : State) (g : Gen) : Alloc := s.allocs[g]
def setAlloc (s : State) (g : Gen) (a : Alloc) : State := { s with allocs := s.allocs.set g a }

def port (s : State) (l : Link) : Port := s.ports[linkIndex l]
def setPort (s : State) (l : Link) (p : Port) : State := { s with ports := s.ports.set (linkIndex l) p }

def setMarks (s : State) (m : TableMarks) : State := { s with marks := m }

end State

end Sys2Proof.Machine
end

