-- ==== Sys2Proof/Machine/Flags.lean ====
section
/-! DEFINITION. What is computed from the records and not stored: the grid's geometry, exclusion, eligibility, REDUCED and UNSERVED, plans' planned drivers, the output pins and the link-flags byte. -/

namespace Sys2Proof.Machine

/-! ## The grid (00 section 1, R2) -/

/-- The column of a coil. -/
def column (c : CoilNo) : Nat := c.val % 8

/-- The row of a coil. -/
def row (c : CoilNo) : Nat := c.val / 8

/-- The home generator of a coil (R2). -/
def homeGen (c : CoilNo) : Gen := ⟨c.val % 8 / 2, by omega⟩

/-- The alternate generator of a coil; none in columns 0 and 7 (R2). -/
def altGen (c : CoilNo) : Option Gen :=
  if column c = 0 ∨ column c = 7 then none
  else if column c % 2 = 0 then some (homeGen c - 1)
  else some (homeGen c + 1)

/-- Whether the generator's reach contains the coil's column (00 section 1.2, R2). -/
def reaches (g : Gen) (c : CoilNo) : Bool := decide (homeGen c = g ∨ altGen c = some g)

/-- The generator a coil is connected to in a relay position (R2). -/
def driverAt (c : CoilNo) (p : Position) : Gen :=
  match p with
  | .home => homeGen c
  | .alternate => (altGen c).getD (homeGen c)

/-- The generator that drives a coil at present. -/
def State.driverGen (s : State) (c : CoilNo) : Gen := driverAt c (s.coil c).driver

/-- The coils of a generator's home columns, in coil-number order. -/
def homeCoils (g : Gen) : List CoilNo := allCoils.filter fun c => decide (homeGen c = g)

/-- The number k of the relay output RLYk of a coil of columns 1 to 6 (R2). -/
def relayNumber (c : CoilNo) : Nat := 6 * row c + column c

/-! ## Coil states (R3) -/

/-- The owner a state carries. -/
def CoilState.owner : CoilState → Option PanId
  | .off _ => none
  | .free => none
  | .claimed o => some o
  | .driven o _ => some o
  | .releasing o _ _ => o
  | .transfer o _ _ => some o
  | .switching o _ => o

/-- The order number a state carries: present exactly in DRIVEN, RELEASING and TRANSFER (R3). -/
def CoilState.order : CoilState → Option Byte
  | .off _ => none
  | .free => none
  | .claimed _ => none
  | .driven _ n => some n
  | .releasing _ n _ => some n
  | .transfer _ n _ => some n
  | .switching _ _ => none

/-- DRIVEN or TRANSFER: in a leg of the order (R3). -/
def CoilState.inLeg : CoilState → Bool
  | .driven _ _ => true
  | .transfer _ _ _ => true
  | _ => false

/-- OFF. -/
def CoilState.isOff : CoilState → Bool
  | .off _ => true
  | _ => false

/-- The coil is in G's order of this number: it holds the number and G drives it (R3). -/
def State.inOrder (s : State) (g : Gen) (n : Byte) (c : CoilNo) : Bool :=
  decide ((s.coil c).state.order = some n ∧ s.driverGen c = g)

/-- The coils that hold G's order number, in coil-number order (R10). -/
def State.orderCoils (s : State) (g : Gen) (n : Byte) : List CoilNo := allCoils.filter (s.inOrder g n)

/-- The coils a pan owns, in coil-number order. -/
def State.ownedCoils (s : State) (p : PanId) : List CoilNo :=
  allCoils.filter fun c => decide ((s.coil c).state.owner = some p)

/-! ## Windows (R102, R104, R106) -/

/-- The window contains the cell in this column and row; bases above limits contain none (R102). -/
def Window.contains (w : Window) (col row : Nat) : Bool :=
  decide (w.colBase ≤ col ∧ col ≤ w.colLimit ∧ w.rowBase ≤ row ∧ row ≤ w.rowLimit)

/-- The coil lies in a window of mode EXCLUDE (R106). -/
def State.excluded (s : State) (c : CoilNo) : Bool :=
  allWindows.any fun w => decide ((s.window w).mode = .exclude) && (s.window w).contains (column c) (row c)

/-- The lowest-numbered PRESET window that contains the cell a centre lies in (R35, R104). -/
def State.presetAt (s : State) (p : Centre) : Option WindowNo :=
  allWindows.find? fun w =>
    decide ((s.window w).mode = .preset) && (s.window w).contains ((p.col + 2) / 4) ((p.row + 2) / 4)

/-- Hot, faulted or excluded: not given to a leg (R6). -/
def State.unfit (s : State) (c : CoilNo) : Bool := (s.coil c).hot || (s.coil c).fault || s.excluded c

/-! ## Pans -/

/-- The pan in a slot, as a slot and tag. -/
def State.panId (s : State) (n : Slot) : PanId := ⟨n, (s.pan n).tag⟩

/-- The permit is RUNNING (R161). -/
def Permit.isRunning : Permit → Bool
  | .running _ => true
  | _ => false

/-- The pan is heating-eligible (R85). -/
def State.heating (s : State) (n : Slot) : Bool :=
  decide ((s.pan n).state = .present ∧ (s.pan n).level ≠ 0) &&
    !(s.pan n).held && !(s.pan n).barred && s.permit.isRunning && !s.safe

/-- The owner named is the pan its slot holds, and is heating-eligible. -/
def State.heatingOwner (s : State) (o : PanId) : Bool :=
  decide ((s.pan o.slot).tag = o.tag) && s.heating o.slot

/-- The REDUCED flag (R38, R137). -/
def Pan.reduced (p : Pan) : Bool := decide (p.short ≠ 0)

/-- The UNSERVED flag (R38, R137). -/
def Pan.isUnserved (p : Pan) : Bool := decide (p.unserved ≠ 0)

/-- The mask with a generator's bit set or cleared (R128). -/
def withBit (m : BitVec 4) (g : Gen) (b : Bool) : BitVec 4 :=
  if b then m ||| (1#4 <<< g.val) else m &&& ~~~(1#4 <<< g.val)

/-- The planned driver of a coil under a plan (R68 to R70). A single plan that does not reach the coil calls for its
home: DESIGN CHOICE, assumption log 31. -/
def plannedPosition (c : CoilNo) : Plan → Position
  | .split => .home
  | .single g => if homeGen c = g then .home else if altGen c = some g then .alternate else .home

/-! ## Generators and orders -/

/-- The generator is eligible to be given a pan's coils (R66). -/
def State.eligible (s : State) (g : Gen) : Bool :=
  !s.safe && decide ((s.desk g).state = .joined ∨ (s.desk g).state = .ordered ∨ (s.desk g).state = .yielding)

/-- A generator's charge: that of its one order, 0 when it holds none (R108). -/
def State.charge (s : State) (g : Gen) : Nat :=
  match (s.desk g).order with
  | some o => o.charge
  | none => 0

/-- Some order, BUILT or ISSUED, has a nonzero charge (R171, R187). -/
def State.anyCharge (s : State) : Bool := allGens.any fun g => decide (s.charge g ≠ 0)

/-- One of the order's legs names the pan (R99). -/
def Order.hasLeg (o : Order) (p : PanId) : Bool := o.legs.any fun l => decide (l.pan = p)

/-- The generators whose order has a leg for the pan, in generator-number order (R99). -/
def State.legHolders (s : State) (p : PanId) : List Gen :=
  allGens.filter fun g =>
    match (s.desk g).order with
    | some o => o.hasLeg p
    | none => false

/-- The power a pan is delivered: its legs in ISSUED orders, for a PRESENT pan (R197). -/
def State.deliveredPower (s : State) (n : Slot) : Nat :=
  if (s.pan n).state = .present then
    (allGens.map fun g =>
      match (s.desk g).order with
      | some ⟨_, .issued _, legs, _, _⟩ =>
        ((legs.filter fun l => decide (l.pan = s.panId n)).map (·.power)).sum
      | _ => 0).sum
  else 0

/-! ## Output pins; all deasserted while RST is low (R176) -/

/-- STOPn: asserted exactly when the generator is STOPPED or DISABLED (R140). -/
def State.stopLine (s : State) (g : Gen) : Bool :=
  !s.rstLow && decide ((s.desk g).state = .stopped ∨ (s.desk g).state = .disabled)

/-- YIELDn: asserted exactly when the generator is YIELDING (R140). -/
def State.yieldLine (s : State) (g : Gen) : Bool := !s.rstLow && decide ((s.desk g).state = .yielding)

/-- ATTN: asserted exactly while the Event Queue is not empty (R196). -/
def State.attn (s : State) : Bool := !s.rstLow && !s.events.isEmpty

/-- FAULT: asserted exactly while the part is SAFE (R170). -/
def State.faultLine (s : State) : Bool := !s.rstLow && s.safe

/-- RLYk of a coil with a relay: asserted when the driver is the alternate (R2). -/
def State.relayLine (s : State) (c : CoilNo) : Bool :=
  !s.rstLow && hasRelay c && decide ((s.coil c).driver = .alternate)

/-- The link-flags byte of a reply on a link (R183). -/
def State.linkFlags (s : State) (l : Link) : Byte :=
  (if (s.port l).overrun then 1 else 0) ||| (if s.safe then 2 else 0) ||| (if s.events.isEmpty then 0 else 4)

end Sys2Proof.Machine
end

