-- ==== Sys2Proof/Machine/Ops.lean ====
section
/-! DEFINITION. The shared operations: how an event's work is put together and abandoned at a failed check, event posting, SAFE entry, checked reads and updates of records, relay changes and charge releases. -/

namespace Sys2Proof.Machine

/-! ## The work of an event (R166) -/

/-- Where the work of an event stands: it goes on, or a check code failed, SAFE has been entered and
the rest of the event is abandoned (R166). -/
inductive Flow where
  | ok (s : State)
  | safe (s : State)
deriving DecidableEq, Repr

/-- A piece of an event's work. -/
abbrev Op := State → Flow

/-- The state reached, whether or not the work was abandoned. -/
def Flow.state : Flow → State
  | .ok s => s
  | .safe s => s

/-- The work goes on. -/
def Flow.isOk : Flow → Bool
  | .ok _ => true
  | .safe _ => false

/-- The next piece of work, unless the event has been abandoned. -/
def Flow.andThen (f : Flow) (k : Op) : Flow :=
  match f with
  | .ok s => k s
  | .safe s => .safe s

/-- One piece of work for each item in turn. -/
def forEach {α : Type} (work : α → Op) : List α → Op
  | [], s => .ok s
  | x :: xs, s => (work x s).andThen (forEach work xs)

/-- The work when the condition holds, nothing otherwise. -/
def doIf (b : Bool) (k : Op) : Op := fun s => if b then k s else .ok s

/-! ## Event Queue (R194) -/

/-- A PAN MOVED for the slot waits in the queue (R56, R194). -/
def movedWaiting (n : Slot) (q : List Event) : Bool :=
  q.any fun e => decide (e.kind = .panMoved) && (e.pan.map (·.slot) == some n)

/-- Posting absorbs the event into a PAN MOVED that waits for the same slot (R194). -/
def coalesced (e : Event) (q : List Event) : Bool :=
  decide (e.kind = .panMoved) &&
    match e.pan with
    | some p => movedWaiting p.slot q
    | none => false

/-- Post an event record (R194): coalesced, appended, or dropped with the LOST flag set. -/
def State.postEvent (s : State) (e : Event) : State :=
  if coalesced e s.events then s
  else if s.events.length < Config.queueRoom then { s with events := s.events ++ [e] }
  else { s with eventsLost := true }

/-- An event of this kind stamped now, with no further field (R193). -/
def State.event (s : State) (k : EventKind) : Event := ⟨k, s.now % 65536, none, none, none, none⟩

/-- Post an event that carries no field. -/
def State.post (s : State) (k : EventKind) : State := s.postEvent (s.event k)

/-- Post a pan event (11 section 11.2). -/
def State.postPan (s : State) (k : EventKind) (p : PanId) : State :=
  s.postEvent { s.event k with pan := some ⟨p.slot, some p.tag⟩ }

/-- Post LEVEL SET BY WINDOW (R105). -/
def State.postWindow (s : State) (p : PanId) (w : WindowNo) : State :=
  s.postEvent { s.event .levelSetByWindow with pan := some ⟨p.slot, some p.tag⟩, cause := some (.window w) }

/-- Post POWER REDUCED or POWER RESTORED, naming the building generator (R137). -/
def State.postPower (s : State) (k : EventKind) (p : PanId) (g : Gen) : State :=
  s.postEvent { s.event k with pan := some ⟨p.slot, some p.tag⟩, gen := some g }

/-- Post a generator event (R142, R148). -/
def State.postGen (s : State) (k : EventKind) (g : Gen) : State :=
  s.postEvent { s.event k with gen := some g }

/-- Post GENERATOR STOPPED (R153). -/
def State.postStopped (s : State) (g : Gen) (c : StopCause) : State :=
  s.postEvent { s.event .generatorStopped with gen := some g, cause := some (.stop c) }

/-- Post COIL FAULT, naming the coil and the reporter (R5). -/
def State.postFault (s : State) (c : CoilNo) (g : Gen) : State :=
  s.postEvent { s.event .coilFault with gen := some g, coil := some c }

/-- Post SHED STARTED or SHED DONE (R116). -/
def State.postShed (s : State) (k : EventKind) (p : Phase) : State :=
  s.postEvent { s.event k with cause := some (.phase p) }

/-! ## SAFE entry (R166 to R168) -/

/-- The record whose check failed. -/
inductive BadRecord where
  | coil (c : CoilNo)
  | pan (n : Slot)
  | order (g : Gen)
  | levels
deriving DecidableEq, Repr

/-- Post SAFE ENTERED, naming the table and the record (R166). -/
def State.postSafe (s : State) (b : BadRecord) : State :=
  s.postEvent <|
    let e := s.event .safeEntered
    match b with
    | .coil c => { e with coil := some c, cause := some (.table .coilMap) }
    | .pan n => { e with pan := some ⟨n, none⟩, cause := some (.table .panTable) }
    | .order g => { e with gen := some g, cause := some (.table .orders) }
    | .levels => { e with cause := some (.table .levelTable) }

/-- The switch remaining of a coil that is commanded to rest as it goes OFF: a full movement when its
relay is energized or moving to the alternate, what is left when it already moves to rest (R12, R15, R17). -/
def Coil.restRemaining (r : Coil) : Option Nat :=
  match r.driver, r.state with
  | .alternate, _ => some Config.switchTime
  | .home, .switching _ left => some left
  | .home, .off left => left
  | .home, _ => none

/-- The coil is OFF, its relay commanded to rest (R10, R12). -/
def Coil.atRest (r : Coil) : Coil := { r with driver := .home, state := .off r.restRemaining }

/-- The coil goes OFF with NO DATA, its relay commanded to rest; hot and fault flags are kept (R15, R17). -/
def Coil.toOff (r : Coil) : Coil := { r.atRest with coverage := none }

/-- The record that RESTART and SAFE entry write afresh, with a valid code (R17). -/
def Coil.cleared (r : Coil) : Coil := { r.toOff with codeOk := true }

/-- A desk with nothing outstanding: no order, EMPTY, the timers idle (R153, R167). -/
def Desk.emptied (d : Desk) (st : GenState) : Desk :=
  { d with state := st, desk := .empty, repeats := 0, order := none, lease := none, yield := none,
           collection := none, hold := none }

/-- SAFE entry's work on one generator (R167): a DISABLED one is left. -/
def safeStop (s : State) (g : Gen) : State :=
  if (s.desk g).state = .disabled then s
  else (s.setDesk g ((s.desk g).emptied .stopped)).postStopped g .safe

/-- The account after SAFE entry and after RESTART (R120). -/
def Account.settled (a : Account) : Account := { a with committed := a.target, load := 0, shed := none }

/-- Every coil OFF, every slot FREE with its tag kept, the lists empty, the accounts settled, the
inverter memories empty and the permit UNSET: what SAFE entry (R168) and RESTART (R175) share. -/
def State.cleared (s : State) : State :=
  { s with
    coils := s.coils.map Coil.cleared
    pans := s.pans.map fun p => Pan.freed p.tag
    partSeconds := Vector.replicate 8 0
    candidates := []
    priority := []
    accounts := s.accounts.map Account.settled
    allocs := s.allocs.map fun a => { a with memory := [] }
    permit := .unset }

/-- Entry into SAFE at a failed check of this record (R166 to R168). -/
def enterSafe (b : BadRecord) (s : State) : State :=
  let s := ({ s with safe := true }).postSafe b
  let s := allGens.foldl safeStop s
  let s := s.cleared
  { s with levels := { s.levels with codeOk := true }, marks := TableMarks.clear }

/-! ## Checked reads and updates (R165, R172) -/

/-- Verify a coil record's code (R19). -/
def checkCoil (c : CoilNo) : Op := fun s =>
  if (s.coil c).codeOk then .ok s else .safe (enterSafe (.coil c) s)

/-- Verify a pan record's code (R63). -/
def checkPan (n : Slot) : Op := fun s =>
  if (s.pan n).codeOk then .ok s else .safe (enterSafe (.pan n) s)

/-- Verify the code of the order a generator holds (R159). -/
def checkOrder (g : Gen) : Op := fun s =>
  match (s.desk g).order with
  | some o => if o.codeOk then .ok s else .safe (enterSafe (.order g) s)
  | none => .ok s

/-- Verify the level table's code (R90). -/
def checkLevels : Op := fun s => if s.levels.codeOk then .ok s else .safe (enterSafe .levels s)

/-- Write a coil record with a fresh code; an armed COIL MAP mark fires (R172). -/
def State.writeCoil (s : State) (c : CoilNo) (r : Coil) : State :=
  (s.setCoil c { r with codeOk := !s.marks.coilMap }).setMarks { s.marks with coilMap := false }

/-- Write a pan record with a fresh code; an armed PAN TABLE mark fires (R172). -/
def State.writePan (s : State) (n : Slot) (p : Pan) : State :=
  (s.setPan n { p with codeOk := !s.marks.panTable }).setMarks { s.marks with panTable := false }

/-- Update a coil record: verify, then write it (R165). -/
def rewriteCoil (c : CoilNo) (f : Coil → Coil) : Op := fun s =>
  (checkCoil c s).andThen fun s => .ok (s.writeCoil c (f (s.coil c)))

/-- Update a coil record: verify, then write it when a field changes (assumption log 6). -/
def editCoil (c : CoilNo) (f : Coil → Coil) : Op := fun s =>
  (checkCoil c s).andThen fun s =>
    if f (s.coil c) = s.coil c then .ok s else .ok (s.writeCoil c (f (s.coil c)))

/-- Update a pan record: verify, then write it (R165). -/
def rewritePan (n : Slot) (f : Pan → Pan) : Op := fun s =>
  (checkPan n s).andThen fun s => .ok (s.writePan n (f (s.pan n)))

/-- Update a pan record: verify, then write it when a field changes (R38, R71, R137). -/
def editPan (n : Slot) (f : Pan → Pan) : Op := fun s =>
  (checkPan n s).andThen fun s =>
    if f (s.pan n) = s.pan n then .ok s else .ok (s.writePan n (f (s.pan n)))

/-! ## Relay Driver (R12) -/

/-- A relay command toward a position for a coil in no order that stays in service (R12): nothing when
the coil has no relay, rests there or already moves there. -/
def relayTo (c : CoilNo) (p : Position) (r : Coil) : Coil :=
  if hasRelay c = true ∧ r.driver ≠ p then
    match r.state with
    | .free => { r with driver := p, state := .switching none Config.switchTime }
    | .claimed o => { r with driver := p, state := .switching (some o) Config.switchTime }
    | _ => r
  else r

/-- Move a CLAIMED coil whose owner's plan calls for the other driver (R10, R13): the plan the pan
holds is consulted, and no new one is chosen (R67). -/
def followPlan (c : CoilNo) : Op := fun s =>
  match (s.coil c).state with
  | .claimed o =>
    (checkPan o.slot s).andThen fun s =>
      match (s.pan o.slot).plan with
      | some plan =>
        if (s.pan o.slot).tag = o.tag ∧ (s.coil c).driver ≠ plannedPosition c plan then
          editCoil c (relayTo c (plannedPosition c plan)) s
        else .ok s
      | none => .ok s
  | _ => .ok s

/-! ## Phase Budget (R108, R109, R114) -/

/-- The power available to a build for G (R109). -/
def State.available (s : State) (g : Gen) : Nat :=
  (s.account (s.genPhase g)).target -
    ((allGens.filter fun h => decide (h ≠ g ∧ s.genPhase h = s.genPhase g)).map s.charge).sum

/-- The account after a release of this charge; a pending shed ends when the load comes to T or below (R114). -/
def Account.release (a : Account) (charge : Nat) : Account :=
  let load := a.load - charge
  if a.shed.isSome = true ∧ load ≤ a.target then { a with load := load, committed := a.target, shed := none }
  else { a with load := load }

/-- The release would end a pending shed (R114). -/
def Account.releaseEnds (a : Account) (charge : Nat) : Bool :=
  a.shed.isSome && decide (a.load - charge ≤ a.target)

/-- Take the generator's order away and its charge off the phase, with the test of R114 but without
posting SHED DONE. -/
def State.dropOrder (s : State) (g : Gen) : State :=
  let p := s.genPhase g
  (s.setAccount p ((s.account p).release (s.charge g))).setDesk g { s.desk g with order := none }

/-- Dropping the order would end the shed of its phase (R114). -/
def State.dropEnds (s : State) (g : Gen) : Bool := (s.account (s.genPhase g)).releaseEnds (s.charge g)

/-- Take the order away and release its charge, posting SHED DONE when that ends a shed (R114, R116). -/
def State.dropOrderPosting (s : State) (g : Gen) : State :=
  if s.dropEnds g then (s.dropOrder g).postShed .shedDone (s.genPhase g) else s.dropOrder g

/-! ## Release of an order (R10, R145) -/

/-- Add the energy of a released ISSUED order's legs to their pans (R145): watts times milliseconds are
thousandths of a watt-second. Leg A adds before leg B (DESIGN CHOICE, assumption log 42). -/
def addEnergy (legs : List Leg) (issued : Nat) : Op :=
  forEach (fun (l : Leg) (s : State) =>
    if (s.pan l.pan.slot).state ≠ .free ∧ (s.pan l.pan.slot).tag = l.pan.tag then
      rewritePan l.pan.slot (fun p => { p with energy := p.energy + l.power * (s.now - issued) }) s
    else .ok s) legs

/-- Energy of the order a generator holds, if it is ISSUED (R145). -/
def countEnergy (g : Gen) : Op := fun s =>
  match (s.desk g).order with
  | some ⟨_, .issued t, legs, _, _⟩ => addEnergy legs t s
  | _ => .ok s

/-- A coil record as its order is released (R10). When the release is part of the disabling of the
coil's own home generator, a TRANSFER coil starts no switch (R10's first exception). -/
def Coil.leaveOrder (ownHomeLeaves : Bool) (r : Coil) : Coil :=
  match r.state with
  | .driven o _ => { r with state := .claimed o }
  | .releasing none _ false => { r with state := .free }
  | .releasing (some o) _ false => { r with state := .claimed o }
  | .releasing _ _ true => r.atRest
  | .transfer o _ p =>
    if ownHomeLeaves = true ∨ p = r.driver then { r with state := .claimed o }
    else { r with driver := p, state := .switching (some o) Config.switchTime }
  | _ => r

/-- Release the coils of the order G holds (R10), a CLAIMED coil then following its owner's plan (R10's
second exception). A home coil of a generator being disabled does not follow one (DESIGN CHOICE, assumption log 39).
The coils leave in coil-number order, each following its plan before the next leaves (DESIGN CHOICE, assumption log 40); one
that leaves and follows is written twice (DEDUCED, assumption log 24). -/
def releaseCoils (g : Gen) (disabling : Bool) : Op := fun s =>
  match (s.desk g).order with
  | some o =>
    forEach (fun c s =>
      let leaves := disabling && decide (homeGen c = g)
      (editCoil c (Coil.leaveOrder leaves) s).andThen (doIf (!leaves) (followPlan c)))
      (s.orderCoils g o.number) s
  | none => .ok s

end Sys2Proof.Machine
end

