-- ==== Sys2Proof/Machine/Building.lean ====
section
/-! DEFINITION. The Allocator: the wait test and the building of one generator's order (chapter 7). -/

namespace Sys2Proof.Machine

/-! ## Wait test (R124) -/

/-- The coil is moving toward G: TRANSFER with G as planned driver, or SWITCHING with G as driver. -/
def movingToward (g : Gen) (c : CoilNo) (r : Coil) : Bool :=
  match r.state with
  | .transfer _ _ p => decide (driverAt c p = g)
  | .switching _ _ => decide (driverAt c r.driver = g)
  | _ => false

/-- The wait test for G fails: a heating-eligible pan owns a coil that is moving toward G (R124). -/
def State.waitBlocked (s : State) (g : Gen) : Bool :=
  allCoils.any fun c =>
    movingToward g c (s.coil c) &&
      match (s.coil c).state.owner with
      | some o => s.heatingOwner o
      | none => false

/-! ## Candidates and choice (R125 to R127) -/

/-- The leg set of a pan on G (R125). -/
def State.legSet (s : State) (g : Gen) (n : Slot) : List CoilNo :=
  allCoils.filter fun c =>
    decide ((s.coil c).state = .claimed (s.panId n) ∧ s.driverGen c = g) && !s.unfit c

/-- The candidates of a build for G, in slot order (R126). -/
def State.candidatesFor (s : State) (g : Gen) : List Slot :=
  allSlots.filter fun n => s.heating n && !(s.legSet g n).isEmpty

/-- How far a slot stands from the front of the Priority List (R43). -/
def State.place (s : State) (n : Slot) : Nat := s.priority.idxOf n

/-- The first slot ranks before the second: higher debt, then nearer the front (R127). -/
def State.ranksBefore (s : State) (a b : Slot) : Bool :=
  decide ((s.pan b).debt < (s.pan a).debt ∨ ((s.pan a).debt = (s.pan b).debt ∧ s.place a < s.place b))

/-- The best of a list, the earlier of two where neither is before the other. -/
def bestBy {α : Type} (before : α → α → Bool) : List α → Option α
  | [] => none
  | x :: xs =>
    match bestBy before xs with
    | none => some x
    | some y => if before y x then some y else some x

/-- The chosen pans, the first chosen in front: the two highest-ranked candidates, or all of one or two (R127). -/
def State.choose (s : State) (cands : List Slot) : List Slot :=
  match bestBy s.ranksBefore cands with
  | none => []
  | some a =>
    match bestBy s.ranksBefore (cands.filter fun n => decide (n ≠ a)) with
    | none => [a]
    | some b => [a, b]

/-! ## Inverters (R129, R130) -/

/-- The inverter the memory keeps for a pan (R130). -/
def keptInverter (memory : List MemoryEntry) (p : PanId) : Option Inverter :=
  (memory.find? fun e => decide (e.pan = p)).map (·.inverter)

/-- The other inverter. -/
def Inverter.other : Inverter → Inverter
  | .a => .b
  | .b => .a

/-- The inverter of a chosen pan (R130): the one it keeps, else the one the other chosen pan has not
kept; when neither keeps one, the first chosen takes A and the other B. -/
def inverterOf (memory : List MemoryEntry) (self : PanId) (other : Option PanId) (isFirst : Bool) : Inverter :=
  match keptInverter memory self with
  | some i => i
  | none =>
    match other.bind (keptInverter memory) with
    | some j => j.other
    | none => if isFirst then .a else .b

/-! ## Demand and power fit (R131, R132) -/

/-- Down to a multiple of 10 W (00 section 4). -/
def floorTen (w : Nat) : Nat := w / 10 * 10

/-- The sum of the coverages of some coils; NO DATA adds nothing. -/
def State.coverOf (s : State) (cs : List CoilNo) : Nat :=
  (cs.map fun c =>
    match (s.coil c).coverage with
    | some v => v.val
    | none => 0).sum

/-- The level table's entry for a level; level 0 is no power (R90). -/
def State.levelPower (s : State) (level : Fin 14) : Nat :=
  if h : level.val = 0 then 0 else s.levels.watts[level.val - 1]'(by have := level.isLt; omega)

/-- The coils over which a pan's power is divided: every owned coil that is fit and not OFF (R131). -/
def State.usableCoils (s : State) (n : Slot) : List CoilNo :=
  (s.ownedCoils (s.panId n)).filter fun c => !s.unfit c && !(s.coil c).state.isOff

/-- A chosen pan's demand on G (R131). -/
def State.demand (s : State) (g : Gen) (n : Slot) : Nat :=
  let all := s.coverOf (s.usableCoils n)
  if all = 0 then 0
  else floorTen (s.levelPower (s.pan n).level * s.coverOf (s.legSet g n) / all)

/-- A chosen pan with its demand and the leg power fitted to it. -/
structure Fit where
  slot : Slot
  demand : Nat
  power : Nat
deriving DecidableEq, Repr

/-- Fit demands, in the order given, to the power available (R132). -/
def fitDemands : Nat → List (Slot × Nat) → List Fit
  | _, [] => []
  | available, (n, demand) :: rest =>
    let power := floorTen (min demand (min Config.maxLegPower available))
    ⟨n, demand, power⟩ :: fitDemands (available - power) rest

/-- The chosen pans in Priority List order, front first (R132). -/
def State.inPriorityOrder (s : State) (chosen : List Slot) : List Slot :=
  match chosen with
  | [a, b] => if s.place b < s.place a then [b, a] else [a, b]
  | other => other

/-- The power fit of the chosen pans (R132). -/
def State.fits (s : State) (g : Gen) (chosen : List Slot) : List Fit :=
  fitDemands (s.available g) ((s.inPriorityOrder chosen).map fun n => (n, s.demand g n))

/-! ## The order (R133 to R135) -/

/-- The leg of a chosen pan; none when its power is 0 (R133). -/
def State.legFor (s : State) (g : Gen) (chosen : List Slot) (fits : List Fit) (n : Slot) : Option Leg :=
  let power := ((fits.find? fun f => decide (f.slot = n)).map (·.power)).getD 0
  if power = 0 then none
  else
    let other := (chosen.find? fun m => decide (m ≠ n)).map s.panId
    let isSplit := decide ((s.pan n).plan = some .split)
    some {
      inverter := inverterOf (s.alloc g).memory (s.panId n) other (decide (chosen.head? = some n))
      pan := s.panId n
      coils := s.legSet g n
      power := power
      split := isSplit
      sync := if isSplit then n else 0 }

/-- The legs, inverter A first (R135). -/
def State.legsFor (s : State) (g : Gen) (chosen : List Slot) (fits : List Fit) : List Leg :=
  let legs := chosen.filterMap (s.legFor g chosen fits)
  (legs.filter fun l => decide (l.inverter = .a)) ++ (legs.filter fun l => decide (l.inverter = .b))

/-- The next order number after the last one assigned (R134). -/
def nextNumber (last : Byte) : Byte := if last = 255 then 1 else last + 1

/-- A pan's debt and masks after a build for G (R127, R128, R132). -/
def builtPan (g : Gen) (cands chosen : List Slot) (fits : List Fit) (n : Slot) (p : Pan) : Pan :=
  if n ∈ chosen then
    let isShort := fits.any fun f => decide (f.slot = n ∧ f.power < f.demand)
    { p with debt := 0, short := withBit p.short g isShort, unserved := withBit p.unserved g false }
  else if n ∈ cands then
    { p with debt := min Config.maxDebt (p.debt + 1), unserved := withBit p.unserved g true }
  else { p with short := withBit p.short g false, unserved := withBit p.unserved g false }

/-- The records a build reads, verified as it reads them (R138): each pan record, then each coil that a
heating-eligible pan owns, slot by slot, all before any write and before the level table (DESIGN CHOICE, assumption
log 35). -/
def readForBuild : Op :=
  forEach (fun n s =>
    (checkPan n s).andThen fun s =>
      doIf (s.heating n) (forEach checkCoil (s.ownedCoils (s.panId n))) s) allSlots

/-- Post POWER REDUCED and POWER RESTORED, in slot order, against the state before the build (R137). -/
def postPowers (g : Gen) (before : State) (s : State) : State :=
  allSlots.foldl (fun s n =>
    if (before.pan n).reduced = (s.pan n).reduced then s
    else if (s.pan n).reduced = true then s.postPower .powerReduced (s.panId n) g
    else if s.heating n = true then s.postPower .powerRestored (s.panId n) g
    else s) s

/-- Write the new order as BUILT with its number, take the charge onto the load (R134 to R136). An armed
ORDERS mark fires (R172). -/
def State.writeOrder (s : State) (g : Gen) (legs : List Leg) : State :=
  let number := nextNumber (s.alloc g).lastNumber
  let charge := (legs.map (·.power)).sum
  let order : Order := ⟨number, .built, legs, charge, !s.marks.orders⟩
  let p := s.genPhase g
  let a := s.account p
  (((s.setDesk g { s.desk g with order := some order }).setAlloc g { s.alloc g with lastNumber := number }).setAccount p
    { a with load := a.load + charge }).setMarks { s.marks with orders := false }

/-- A coil taken into a leg (R9). -/
def Coil.taken (n : Byte) (r : Coil) : Coil :=
  match r.state with
  | .claimed o => { r with state := .driven o n }
  | _ => r

/-- Take the coils of the order's legs (R9, R136), leg by leg as the order lists them and in coil-number order within a
leg (DESIGN CHOICE, assumption log 34). -/
def takeCoils (g : Gen) (legs : List Leg) : Op := fun s =>
  forEach (fun c => editCoil c (Coil.taken (s.alloc g).lastNumber)) (legs.flatMap (·.coils)) s

/-- Build G's order as BUILT, the wait test having passed (R125 to R137). The pan records it changes are written once
each, in slot order (DESIGN CHOICE, assumption log 42). -/
def buildOrder (g : Gen) : Op := fun s0 =>
  (readForBuild s0).andThen fun s =>
    let cands := s.candidatesFor g
    let chosen := s.choose cands
    (doIf (!chosen.isEmpty) checkLevels s).andThen fun s =>
      let fits := s.fits g chosen
      let legs := s.legsFor g chosen fits
      (forEach (fun n => editPan n (builtPan g cands chosen fits n)) allSlots s).andThen fun t =>
        (takeCoils g legs (t.writeOrder g legs)).andThen fun t => .ok (postPowers g s t)

end Sys2Proof.Machine
end

