-- ==== Sys2Proof/Machine/Orders.lean ====
section
/-! DEFINITION. The Order Desk's shared work: delivery, yield, rebuild, downward-change reports, the test of WAITING desks and the stop of a generator (chapters 5 and 8). -/

namespace Sys2Proof.Machine

/-- Deliver the BUILT order as ISSUED (R147). -/
def deliver (g : Gen) : Op := fun s =>
  (checkOrder g s).andThen fun s =>
    let d := s.desk g
    .ok (s.setDesk g { d with
      state := .ordered
      desk := .empty
      repeats := 0
      order := d.order.map fun o => { o with state := .issued s.now }
      lease := some s.params.orderLease
      collection := none })

/-- A YIELD request (R152). -/
def State.requestYield (s : State) (g : Gen) : State :=
  if (s.desk g).state = .ordered then
    s.setDesk g { s.desk g with state := .yielding, yield := some s.params.yieldTimeout }
  else s

/-- A WAITING desk whose wait condition has cleared builds, and becomes COMPLETE (R149). -/
def buildForWaiting (g : Gen) (entry : Byte) : Op := fun s =>
  (buildOrder g s).andThen fun s =>
    .ok (s.setDesk g { s.desk g with desk := .complete entry, collection := some s.params.collectionTime })

/-- The fetch entry a desk holds. -/
def DeskState.entry : DeskState → Byte
  | .empty => 0
  | .waiting e => e
  | .complete e => e

/-- Rebuild G's BUILT order (R76, R100, R124, R150): release it, then build afresh; when the wait test
fails the desk returns to WAITING with its entry and repeat count. -/
def rebuild (g : Gen) : Op := fun s =>
  let entry := (s.desk g).desk.entry
  (releaseCoils g false s).andThen fun s =>
    let s := s.dropOrderPosting g
    if s.waitBlocked g then
      .ok (s.setDesk g { s.desk g with desk := .waiting entry, collection := none })
    else buildForWaiting g entry s

/-- Act on a downward-change report on G's order (R100, R159). -/
def reportDown (g : Gen) : Op := fun s =>
  (checkOrder g s).andThen fun s =>
    match (s.desk g).order with
    | none => .ok s
    | some o =>
      match o.state with
      | .issued _ => .ok (s.requestYield g)
      | .built => rebuild g s

/-- One report for each affected order, in generator-number order (R101). -/
def reportAll (affected : List Gen) : Op :=
  forEach reportDown (allGens.filter fun g => decide (g ∈ affected))

/-- Test the wait condition of one desk again (R149). -/
def retestDesk (g : Gen) : Op := fun s =>
  match (s.desk g).desk with
  | .waiting entry => if s.waitBlocked g then .ok s else buildForWaiting g entry s
  | _ => .ok s

/-- Test every WAITING desk again, in generator-number order (R149). -/
def retestDesks : Op := forEach retestDesk allGens

/-! ## Stops (R153) -/

/-- The hold end a stop cause records (R153). -/
def StopCause.holdEnd : StopCause → HoldEnd
  | .restart => .absent
  | _ => .joined

/-- Step 2 of a stop, of HELLO and of the disabling of a generator: energy, coils, then the order and its
charge; the order's code is verified first (R153, R159). SHED DONE is left to the caller. -/
def releaseOrder (g : Gen) (disabling : Bool) : Op := fun s =>
  (checkOrder g s).andThen fun s =>
    (countEnergy g s).andThen fun s => releaseCoils g disabling s

/-- Empty G's inverter memory (R129). -/
def State.emptyMemory (s : State) (g : Gen) : State := s.setAlloc g { s.alloc g with memory := [] }

/-- Steps 3 to 5 of a stop, after the order's coils have left it: the charge, the memory, the desk and its
timers, GENERATOR STOPPED and then any SHED DONE, and the hold unless the cause is DISABLE (R153, R114, R156). -/
def State.finishStop (s : State) (g : Gen) (cause : StopCause) : State :=
  let ends := (s.desk g).order.isSome && s.dropEnds g
  let s := if (s.desk g).order.isSome then s.dropOrder g else s
  let s := s.emptyMemory g
  let d := (s.desk g).emptied .stopped
  let d := if cause = .disable then { d with state := .disabled }
           else { d with hold := some Config.stopHold, holdEnd := cause.holdEnd }
  let s := (s.setDesk g d).postStopped g cause
  if ends then s.postShed .shedDone (s.genPhase g) else s

/-- Stop a generator that is JOINED, ORDERED or YIELDING, steps 1 to 5 (R153); for cause DISABLE it is left
DISABLED with no hold (R156). The re-plan pass is the caller's. -/
def stopGen (g : Gen) (cause : StopCause) : Op := fun s =>
  let s := s.setDesk g { s.desk g with state := .stopped }
  (releaseOrder g (decide (cause = .disable)) s).andThen fun s => .ok (s.finishStop g cause)

end Sys2Proof.Machine
end

