-- ==== Sys2Proof/Machine/Plans.lean ====
section
/-! DEFINITION. Generator Plans: the choice of a pan's plan and the moving of coils to their planned drivers (chapter 4). -/

namespace Sys2Proof.Machine

/-- How many footprint coils lie in a generator's home columns (R68). -/
def homeCount (g : Gen) (footprint : List CoilNo) : Nat := (footprint.filter fun c => decide (homeGen c = g)).length

/-- The eligible generators whose reach contains the footprint, in generator-number order (R68). -/
def State.reachers (s : State) (footprint : List CoilNo) : List Gen :=
  allGens.filter fun g => s.eligible g && footprint.all (reaches g)

/-- The plan chosen for a footprint (R68, R69): the reacher with the most home coils, the lower-numbered
among equals, or SPLIT. -/
def State.choosePlan (s : State) (footprint : List CoilNo) : Plan :=
  match bestBy (fun a b => decide (homeCount b footprint < homeCount a footprint)) (s.reachers footprint) with
  | some g => .single g
  | none => .split

/-- A pan record with a chosen plan and the SPLIT flag that goes with it (R68, R69, R71). -/
def Pan.withPlan (plan : Plan) (p : Pan) : Pan := { p with plan := some plan, split := decide (plan = .split) }

/-- Choose the plan of a PRESENT pan with a footprint and write it if it changes (R67, R71). -/
def planPan (n : Slot) : Op := fun s =>
  if (s.pan n).state = .present ∧ (s.pan n).footprint ≠ [] then
    editPan n (fun p => p.withPlan (s.choosePlan p.footprint)) s
  else .ok s

/-- The coil is in an ISSUED order of its driver. -/
def State.inIssued (s : State) (c : CoilNo) : Bool :=
  match (s.desk (s.driverGen c)).order with
  | some ⟨n, .issued _, _, _, _⟩ => decide ((s.coil c).state.order = some n)
  | _ => false

/-- A DRIVEN coil that is to move at its order's release (R75). -/
def Coil.toTransfer (p : Position) (r : Coil) : Coil :=
  match r.state with
  | .driven o n => { r with state := .transfer o n p }
  | _ => r

/-- A TRANSFER coil whose transfer is cancelled (R77). -/
def Coil.cancelTransfer (r : Coil) : Coil :=
  match r.state with
  | .transfer o n _ => { r with state := .driven o n }
  | _ => r

/-- Look at one footprint coil of a pan under its plan (R73, R77): move it by its state, cancel a
transfer whose planned driver is now its driver. -/
def moveCoil (plan : Plan) (c : CoilNo) : Op := fun s =>
  let p := plannedPosition c plan
  (checkCoil c s).andThen fun s =>
    match (s.coil c).state with
    | .claimed _ => editCoil c (relayTo c p) s
    | .driven _ _ =>
      if (s.coil c).driver ≠ p ∧ s.inIssued c = true then editCoil c (Coil.toTransfer p) s else .ok s
    | .transfer _ _ _ => if (s.coil c).driver = p then editCoil c Coil.cancelTransfer s else .ok s
    | _ => .ok s

/-- The coil's order is noted for a downward change by a move under this plan (R73): DRIVEN and to be
moved to its other driver. -/
def State.noted (s : State) (plan : Plan) (c : CoilNo) : Bool :=
  match (s.coil c).state with
  | .driven _ _ => decide ((s.coil c).driver ≠ plannedPosition c plan)
  | _ => false

/-- The generators whose orders a pan's moves note, under the plan it holds. -/
def State.notedBy (s : State) (n : Slot) : List Gen :=
  match (s.pan n).plan with
  | some plan => ((s.pan n).footprint.filter (s.noted plan)).map s.driverGen
  | none => []

/-- Move a PRESENT pan's footprint coils, in coil-number order, toward its plan (R73). -/
def movePan (n : Slot) : Op := fun s =>
  match (s.pan n).state, (s.pan n).plan with
  | .present, some plan => forEach (moveCoil plan) (s.pan n).footprint s
  | _, _ => .ok s

/-- Re-plan the pans of a list in turn, gathering the orders noted, then make one downward-change report
for each order noted (R73). -/
def replanFrom : List Slot → List Gen → Op
  | [], noted, s => reportAll noted s
  | n :: rest, noted, s =>
    (planPan n s).andThen fun s =>
      let more := if (s.pan n).state = .present then s.notedBy n else []
      (movePan n s).andThen (replanFrom rest (noted ++ more))

/-- The re-plan pass over every PRESENT pan, in slot order (R58, R67, R81). -/
def replanPass : Op := replanFrom allSlots []

end Sys2Proof.Machine
end

