-- ==== Sys2Proof/Machine/Footprints.lean ====
section
/-! DEFINITION. Footprint evaluation: qualifying coils, components, totals and centres (chapter 2, section 2.3). -/

namespace Sys2Proof.Machine

/-- The coil qualifies for a footprint (R30). -/
def Coil.qualifies (r : Coil) : Bool :=
  !r.state.isOff && !r.fault &&
    match r.coverage with
    | some v => decide (Config.qualifyingCoverage ≤ v.val)
    | none => false

/-- The coils of a list as one bit for each coil number. -/
def coilMask (cs : List CoilNo) : BitVec 48 := cs.foldl (fun m c => m ||| (1#48 <<< c.val)) 0

/-- Every coil of one column. -/
def columnMask (col : Nat) : BitVec 48 := coilMask (allCoils.filter fun c => decide (column c = col))

/-- The coils of a set together with all their edge neighbours: left, right, in front and behind (R32).
Coils of column 7 have none to the right, coils of column 0 none to the left. -/
def spread (m : BitVec 48) : BitVec 48 :=
  m ||| ((m &&& ~~~(columnMask 7)) <<< 1) ||| ((m &&& ~~~(columnMask 0)) >>> 1) ||| (m <<< 8) ||| (m >>> 8)

/-- Grow a set within the qualifying coils by neighbours, until it grows no more or the steps run out. -/
def grow (qualifying : BitVec 48) : Nat → BitVec 48 → BitVec 48
  | 0, m => m
  | k + 1, m =>
    let next := spread m &&& qualifying
    if next = m then m else grow qualifying k next

/-- The coils of a mask, in coil-number order. -/
def maskCoils (m : BitVec 48) : List CoilNo := allCoils.filter fun c => m.getLsbD c.val

/-- A component (R36). Its first coil is the head of its coils. -/
structure Component where
  coils : List CoilNo
  total : Nat
  centre : Centre
deriving DecidableEq, Repr

/-- A quotient rounded to the nearest integer, a half upward (R34). -/
def roundHalfUp (num den : Nat) : Nat := (2 * num + den) / (2 * den)

/-- The sum over coils of coverage times a coordinate. -/
def State.moment (s : State) (axis : CoilNo → Nat) (cs : List CoilNo) : Nat :=
  (cs.map fun c => s.coverOf [c] * axis c).sum

/-- The centre of a set of coils (R34). -/
def State.centreOf (s : State) (cs : List CoilNo) : Centre :=
  ⟨roundHalfUp (4 * s.moment column cs) (s.coverOf cs), roundHalfUp (4 * s.moment row cs) (s.coverOf cs)⟩

/-- The component of a set of coils (R33, R34). -/
def State.componentOf (s : State) (cs : List CoilNo) : Component := ⟨cs, s.coverOf cs, s.centreOf cs⟩

/-- The components that begin at the seeds listed, taking each coil once. -/
def State.componentsFrom (s : State) : List CoilNo → BitVec 48 → List Component
  | [], _ => []
  | c :: rest, left =>
    if left.getLsbD c.val then
      let m := grow left 48 (coilMask [c])
      s.componentOf (maskCoils m) :: s.componentsFrom rest (left &&& ~~~m)
    else s.componentsFrom rest left

/-- The component list, ordered by first coil (R32). -/
def State.components (s : State) : List Component :=
  s.componentsFrom allCoils (coilMask (allCoils.filter fun c => (s.coil c).qualifies))

end Sys2Proof.Machine
end

