-- ==== Sys2Proof/Machine/Tracking.lean ====
section
/-! DEFINITION. The Pan Tracker's nine steps and the BARRED test that follows them (chapter 3, R87). -/

namespace Sys2Proof.Machine

/-! ## Steps 1 to 4: the PRESENT pans (R45 to R48) -/

/-- How many coils two sets share. -/
def overlap (a b : List CoilNo) : Nat := (a.filter fun c => decide (c ∈ b)).length

/-- The component a footprint picks: the largest overlap, then the larger total, then the lower first
coil; none when it shares no coil with any (R45). -/
def pickFor (footprint : List CoilNo) (comps : List Component) : Option Component :=
  bestBy (fun a b => decide (overlap b.coils footprint < overlap a.coils footprint ∨
      (overlap a.coils footprint = overlap b.coils footprint ∧ b.total < a.total)))
    (comps.filter fun k => decide (overlap k.coils footprint ≠ 0))

/-- A pan's pick, with its old footprint. -/
structure Pick where
  slot : Slot
  old : List CoilNo
  component : Component
deriving DecidableEq, Repr

/-- Step 1: the picks of the PRESENT pans, in slot order (R45). -/
def State.picks (s : State) (comps : List Component) : List Pick :=
  allSlots.filterMap fun n =>
    if (s.pan n).state = .present then
      (pickFor (s.pan n).footprint comps).map fun k => ⟨n, (s.pan n).footprint, k⟩
    else none

/-- The picks of one component. -/
def pickersOf (picks : List Pick) (k : Component) : List Pick := picks.filter fun p => decide (p.component = k)

/-- The picker that takes the coils no picker held: the most coils of its old footprint in the component,
the lower slot among equals (R47). -/
def mainPicker (pickers : List Pick) (k : Component) : Option Pick :=
  bestBy (fun a b => decide (overlap k.coils b.old < overlap k.coils a.old)) pickers

/-- The picker a coil of a divided component goes to (R47). -/
def coilPicker (pickers : List Pick) (k : Component) (c : CoilNo) : Option Slot :=
  match pickers.find? fun p => decide (c ∈ p.old) with
  | some p => some p.slot
  | none => (mainPicker pickers k).map (·.slot)

/-- A pan record on a new footprint (R46, R47). -/
def Pan.placed (k : Component) (p : Pan) : Pan :=
  { p with footprint := k.coils, centre := some k.centre, total := k.total }

/-- Step 2: pans that are the only picker of their component (R46). -/
def stepSole (picks : List Pick) : Op :=
  forEach (fun p => editPan p.slot (Pan.placed p.component))
    (picks.filter fun p => decide ((pickersOf picks p.component).length = 1))

/-- Step 3: components picked by several pans are divided (R47), component by component, and within one its pickers in
slot order (R44; DESIGN CHOICE, assumption log 32). -/
def stepShared (comps : List Component) (picks : List Pick) : Op := fun s =>
  forEach (fun k =>
    let pickers := pickersOf picks k
    forEach (fun p =>
      let share := k.coils.filter fun c => decide (coilPicker pickers k c = some p.slot)
      editPan p.slot (Pan.placed (s.componentOf share))) pickers)
    (comps.filter fun k => decide (2 ≤ (pickersOf picks k).length)) s

/-- A pan record going LOST (R48). -/
def Pan.toLost (lostTime : Nat) (p : Pan) : Pan :=
  { p with state := .lost, footprint := [], total := 0, plan := none, split := false,
           lostRemaining := some (lostTime * 1000) }

/-- Step 4: PRESENT pans that picked nothing become LOST (R48). -/
def stepLost (picks : List Pick) : Op :=
  forEach (fun n s =>
    if (s.pan n).state = .present ∧ (picks.all fun p => decide (p.slot ≠ n)) = true then
      (editPan n (Pan.toLost s.params.lostTime) s).andThen fun s => .ok (s.postPan .panLost (s.panId n))
    else .ok s) allSlots

/-! ## Step 5: candidates and LOST pans (R49 to R52) -/

/-- A candidate with the component it wants. -/
structure Claim where
  index : Nat
  candidate : Candidate
  component : Component
deriving DecidableEq, Repr

/-- What each candidate of the list wants of the unpicked components (R49). -/
def claims (cands : List Candidate) (unpicked : List Component) : List Claim :=
  cands.zipIdx.filterMap fun p => (pickFor p.1.footprint unpicked).map fun k => ⟨p.2, p.1, k⟩

/-- The claim that takes a component: the largest overlap, the oldest among equals (R49). -/
def winner (cs : List Claim) (k : Component) : Option Claim :=
  bestBy (fun a b => decide (overlap k.coils b.candidate.footprint < overlap k.coils a.candidate.footprint))
    (cs.filter fun c => decide (c.component = k))

/-- The component a candidate takes (R49). -/
def takenBy (cs : List Claim) (index : Nat) : Option Component :=
  match cs.find? fun c => decide (c.index = index) with
  | some c =>
    match winner cs c.component with
    | some w => if w.index = index then some c.component else none
    | none => none
  | none => none

/-- A candidate renewed by the component it takes (R49). -/
def Candidate.renewed (confirmCount : Nat) (k : Component) (c : Candidate) : Candidate :=
  { c with
    footprint := k.coils
    centre := k.centre
    total := k.total
    count := if Config.minTotal ≤ k.total then min (c.count + 1) confirmCount else c.count }

/-- A component that no pan picked. -/
def unpickedOf (comps : List Component) (picks : List Pick) : List Component :=
  comps.filter fun k => (pickersOf picks k).isEmpty

/-- The candidates that took a component, renewed; the others are dropped (R49, R52). -/
def renewCandidates (confirmCount : Nat) (cands : List Candidate) (cs : List Claim) : List Candidate :=
  cands.zipIdx.filterMap fun p => (takenBy cs p.2).map fun k => p.1.renewed confirmCount k

/-- The components no candidate took (R50). -/
def untaken (unpicked : List Component) (cs : List Claim) : List Component :=
  unpicked.filter fun k => (winner cs k).isNone

/-- The Chebyshev distance of two centres (00 section 4). -/
def distance (a b : Centre) : Nat :=
  max (max a.col b.col - min a.col b.col) (max a.row b.row - min a.row b.row)

/-- How far a slot's last centre lies from a component's. -/
def State.distanceTo (s : State) (k : Component) (n : Slot) : Nat :=
  match (s.pan n).centre with
  | some p => distance p k.centre
  | none => Config.returnRadius + 1

/-- The LOST pan a component brings back: within the radius, nearest, lower slot among equals (R50). -/
def State.returning (s : State) (k : Component) : Option Slot :=
  if Config.minTotal ≤ k.total then
    bestBy (fun a b => decide (s.distanceTo k a < s.distanceTo k b))
      (allSlots.filter fun n => decide ((s.pan n).state = .lost ∧ s.distanceTo k n ≤ Config.returnRadius))
  else none

/-- A pan record brought back (R51). -/
def Pan.returned (k : Component) (p : Pan) : Pan :=
  { p.placed k with state := .present, lostRemaining := none, held := p.held || p.holdOnLift }

/-- A component as a new candidate (R52). -/
def Candidate.ofComponent (k : Component) : Candidate := ⟨k.coils, k.centre, k.total, 0, false⟩

/-- Add new candidates while there is room (R52). -/
def addCandidates : List Component → List Candidate → List Candidate
  | [], cands => cands
  | k :: rest, cands =>
    addCandidates rest (if cands.length < Config.candidateRoom then cands ++ [Candidate.ofComponent k] else cands)

/-- Step 5, second and last parts: the components left, in list order, bring back LOST pans; the others
become new candidates (R50 to R52). -/
def stepReturn : List Component → List Component → Op
  | [], leftover, s => .ok { s with candidates := addCandidates leftover s.candidates }
  | k :: rest, leftover, s =>
    match s.returning k with
    | some n =>
      (editPan n (Pan.returned k) s).andThen fun s =>
        stepReturn rest leftover (s.postPan .panReturned (s.panId n))
    | none => stepReturn rest (leftover ++ [k]) s

/-- Step 5 whole (R49 to R52). The candidates that took nothing are dropped before new ones are added. -/
def stepCandidates (unpicked : List Component) : Op := fun s =>
  let cs := claims s.candidates unpicked
  stepReturn (untaken unpicked cs) []
    { s with candidates := renewCandidates s.params.confirmCount s.candidates cs }

/-! ## Step 6: confirmation (R53, R54) -/

/-- The lowest-numbered FREE slot (R53). -/
def State.freeSlot (s : State) : Option Slot := allSlots.find? fun n => decide ((s.pan n).state = .free)

/-- A pan record as confirmed (R53, R39). -/
def Pan.confirmed (c : Candidate) (level : Fin 14) (w : Option WindowNo) (p : Pan) : Pan :=
  { Pan.freed (p.tag + 1) with
    state := .present
    footprint := c.footprint
    centre := some c.centre
    total := c.total
    level := level
    source := if w.isSome then .window else .panel
    window := w
    codeOk := p.codeOk }

/-- A preset level as a level (R102). -/
def presetLevel (l : Fin 13) : Fin 14 := l.castSucc

/-- The candidate is due: its count has reached the confirm count and it took a component of total 8 or
more at this evaluation. A renewed candidate's total is the component's, and a candidate made at this
evaluation has count 0 (R52, R53). -/
def Candidate.due (confirmCount : Nat) (c : Candidate) : Bool :=
  decide (confirmCount ≤ c.count ∧ c.count ≠ 0 ∧ Config.minTotal ≤ c.total)

/-- Confirm a candidate into a slot (R53). -/
def confirmInto (n : Slot) (c : Candidate) : Op := fun s =>
  let w := s.presetAt c.centre
  let level := match w with
    | some x => presetLevel (s.window x).preset
    | none => 0
  (editPan n (Pan.confirmed c level w) s).andThen fun s =>
    let s := { s with priority := s.priority ++ [n] }
    let s := (s.setPartSecond n 0).postPan .panConfirmed (s.panId n)
    .ok (match w with
      | some x => s.postWindow (s.panId n) x
      | none => s)

/-- Step 6: confirm the candidates that are due, in list order; a due one that finds no FREE slot stays and
is refused once (R53, R54). The second list gathers those that stay. -/
def stepConfirm : List Candidate → List Candidate → Op
  | [], kept, s => .ok { s with candidates := kept }
  | c :: rest, kept, s =>
    if c.due s.params.confirmCount then
      match s.freeSlot with
      | some n => (confirmInto n c s).andThen (stepConfirm rest kept)
      | none =>
        stepConfirm rest (kept ++ [{ c with refusalPosted := true }])
          (if c.refusalPosted then s else s.post .panRefused)
    else stepConfirm rest (kept ++ [c]) s

/-! ## Step 7: owners (R7, R8, R55) -/

/-- A coil record as it leaves its owner's footprint (R8). -/
def Coil.leaveFootprint (r : Coil) : Coil :=
  match r.state with
  | .claimed _ => { r with state := .free }
  | .driven _ n => { r with state := .releasing none n false }
  | .transfer _ n _ => { r with state := .releasing none n false }
  | .releasing _ n off => { r with state := .releasing none n off }
  | .switching _ left => { r with state := .switching none left }
  | _ => r

/-- A coil record as it joins a pan's footprint (R7). A RELEASING coil of a leg of that pan is DRIVEN again. -/
def Coil.joinFootprint (o : PanId) (legPan : Option PanId) (r : Coil) : Coil :=
  match r.state with
  | .free => { r with state := .claimed o }
  | .releasing _ n off =>
    if legPan = some o then { r with state := .driven o n } else { r with state := .releasing (some o) n off }
  | .switching _ left => { r with state := .switching (some o) left }
  | _ => r

/-- The pan whose footprint holds a coil. -/
def State.holder (s : State) (c : CoilNo) : Option PanId :=
  (allSlots.find? fun n => decide ((s.pan n).state = .present ∧ c ∈ (s.pan n).footprint)).map s.panId

/-- The pan of the leg that holds a coil in its driver's order (R7). -/
def State.legPan (s : State) (c : CoilNo) : Option PanId :=
  match (s.desk (s.driverGen c)).order with
  | some o =>
    if (s.coil c).state.order = some o.number then
      (o.legs.find? fun l => decide (c ∈ l.coils)).map (·.pan)
    else none
  | none => none

/-- The coils that have left their owner's footprint. -/
def State.leavers (s : State) : List CoilNo :=
  allCoils.filter fun c => (s.coil c).state.owner.isSome && decide ((s.coil c).state.owner ≠ s.holder c)

/-- The coils that have joined a footprint. -/
def State.joiners (s : State) : List CoilNo :=
  allCoils.filter fun c => (s.holder c).isSome && decide ((s.coil c).state.owner ≠ s.holder c)

/-- Step 7: R8 for every coil that left, then R7 for every coil that joined, then one report for each
order that lost a coil of a leg (R55); coils in coil-number order within each (DESIGN CHOICE, assumption log 40). A coil that
leaves and joins is written twice (DEDUCED, assumption log 24). -/
def stepOwners : Op := fun s =>
  let affected := (s.leavers.filter fun c => (s.coil c).state.inLeg).map s.driverGen
  (forEach (fun c => editCoil c Coil.leaveFootprint) s.leavers s).andThen fun s =>
    (forEach (fun c s =>
      match s.holder c with
      | some o => editCoil c (Coil.joinFootprint o (s.legPan c)) s
      | none => .ok s) s.joiners s).andThen (reportAll affected)

/-! ## Step 8: PAN MOVED and windows (R56, R57, R105) -/

/-- Step 8, first part: PAN MOVED for each pan that kept a component and whose set of coils changed (R56). -/
def stepMoved (picks : List Pick) (s : State) : State :=
  picks.foldl (fun s p =>
    if (s.pan p.slot).footprint = p.old then s else s.postPan .panMoved (s.panId p.slot)) s

/-- A slot moved to the front of the Priority List (R43). -/
def State.raise (s : State) (n : Slot) : State := { s with priority := n :: s.priority.erase n }

/-- A pan record that takes a window's preset (R105). -/
def Pan.takePreset (w : WindowNo) (level : Fin 14) (p : Pan) : Pan :=
  { p with level := level, source := .window, window := some w, boost := none }

/-- Step 8, second part, for one slot: enter a window, or leave the recorded one (R57, R104, R105). -/
def windowPan (n : Slot) : Op := fun s =>
  if (s.pan n).state = .present then
    match (s.pan n).centre.bind s.presetAt with
    | some w =>
      if (s.pan n).window = some w then .ok s
      else
        let old := (s.pan n).level
        let new := presetLevel (s.window w).preset
        (editPan n (Pan.takePreset w new) s).andThen fun s =>
          let s := s.postWindow (s.panId n) w
          .ok (if old < new then s.raise n else s)
    | none => editPan n (fun p => { p with window := none }) s
  else .ok s

/-- Run a piece of work on each slot in turn, gathering the generators with a leg for each pan whose level
it lowers; then make one report for each order gathered (R57, R99, R101). -/
def stepWindowsFrom : List Slot → List Gen → Op
  | [], affected, s => reportAll affected s
  | n :: rest, affected, s =>
    (windowPan n s).andThen fun t =>
      stepWindowsFrom rest (affected ++ if (t.pan n).level < (s.pan n).level then t.legHolders (t.panId n) else []) t

/-- Step 8, second part (R57). -/
def stepWindows : Op := stepWindowsFrom allSlots []

/-! ## The BARRED test (R87) -/

/-- Every coil of the footprint is hot or faulted (R87). -/
def State.allHot (s : State) (footprint : List CoilNo) : Bool :=
  footprint.all fun c => (s.coil c).hot || (s.coil c).fault

/-- The BARRED test of one slot (R87): its record is read before its coils, which go in coil-number order (DESIGN
CHOICE, assumption log 41). -/
def barredPan (n : Slot) : Op := fun s =>
  let p := s.pan n
  if p.state = .present ∧ p.footprint ≠ [] then
    (checkPan n s).andThen fun s => (forEach checkCoil p.footprint s).andThen fun s =>
      let b := s.allHot p.footprint
      if b = p.barred then .ok s
      else
        (editPan n (fun p => { p with barred := b }) s).andThen fun s =>
          .ok (s.postPan (if b then .panBarred else .panCleared) (s.panId n))
  else .ok s

/-- The BARRED test over the slots, with one report for each order holding a leg of a pan it bars (R87, R101). -/
def barredFrom : List Slot → List Gen → Op
  | [], affected, s => reportAll affected s
  | n :: rest, affected, s =>
    (barredPan n s).andThen fun t =>
      barredFrom rest
        (affected ++ if (t.pan n).barred = true ∧ (s.pan n).barred = false then t.legHolders (t.panId n) else []) t

/-! ## The evaluation whole (R26, R36, R44) -/

/-- One footprint evaluation: every coil record read, the components handed to the Pan Tracker, its nine
steps, then the BARRED test (R36, R44, R87). The coil records are read in coil-number order (DESIGN CHOICE,
assumption log 41). -/
def evaluate : Op := fun s =>
  (forEach checkCoil allCoils s).andThen fun s =>
    let comps := s.components
    (forEach checkPan allSlots s).andThen fun s =>
      let picks := s.picks comps
      (stepSole picks s).andThen fun s => (stepShared comps picks s).andThen fun s =>
        (stepLost picks s).andThen fun s => (stepCandidates (unpickedOf comps picks) s).andThen fun s =>
          (stepConfirm s.candidates [] s).andThen fun s => (stepOwners s).andThen fun s =>
            (stepWindows (stepMoved picks s)).andThen fun s =>
              (replanPass s).andThen (barredFrom allSlots [])

end Sys2Proof.Machine
end

