-- ==== Sys2Proof/Machine/Cooking.lean ====
section
/-! DEFINITION. Pan timers and boosts: the completion of a timer, the end of a boost, and what settles at the end of an event that can change heating eligibility (R85, R95 to R98, R149). -/

namespace Sys2Proof.Machine

/-- A pan record whose timer completes (R96). -/
def Pan.timerDone (p : Pan) : Pan :=
  if p.autoHold = true then { p with timer := none, held := true }
  else { p with timer := none, level := 0, source := .panel, boost := none }

/-- A pan timer completes (R96). The record is verified and written before TIMER DONE is posted (DESIGN CHOICE,
assumption log 45). -/
def completeTimer (n : Slot) : Op := fun s =>
  (editPan n Pan.timerDone s).andThen fun s =>
    let s := s.postPan .timerDone (s.panId n)
    reportAll (s.legHolders (s.panId n)) s

/-- A pan record whose boost ends (R97). -/
def Pan.boostDone (p : Pan) : Pan := { p with level := 12, boost := none }

/-- A boost ends (R97). -/
def endBoost (n : Slot) : Op := fun s =>
  (editPan n Pan.boostDone s).andThen fun s =>
    let s := s.postPan .boostEnded (s.panId n)
    reportAll (s.legHolders (s.panId n)) s

/-- The pan timer counts a second down (R95). -/
def decrementTimer (n : Slot) : Op := fun s =>
  (editPan n (fun p => { p with timer := p.timer.map (· - 1) }) s).andThen fun s => .ok (s.setPartSecond n 0)

/-- A timer that stands at 0 on a heating-eligible pan completes (R91, R95). -/
def completeIfDue (n : Slot) : Op := fun s =>
  if s.heating n = true ∧ (s.pan n).timer = some 0 then completeTimer n s else .ok s

/-- A boost remaining that stands at 0 on a heating-eligible pan ends the boost (R97). -/
def endBoostIfDue (n : Slot) : Op := fun s =>
  if s.heating n = true ∧ (s.pan n).boost = some 0 then endBoost n s else .ok s

/-- What stood at 0 falls due for the pans that were not heating-eligible before the event, in slot order,
the timer before the boost (R91, R97; assumption log 10). Each completion is an occasion of its own and makes its own
reports (R101; DESIGN CHOICE, assumption log 33). -/
def dueCompletions (before : State) : Op :=
  forEach (fun n s =>
    if before.heating n then .ok s else (completeIfDue n s).andThen (endBoostIfDue n)) allSlots

/-- The end of an event that can change heating eligibility or clear a wait condition: completions that fall
due, then the test of the WAITING desks (R85, R149; assumption log 11). -/
def settle (before : State) : Op := fun s => (dueCompletions before s).andThen retestDesks

end Sys2Proof.Machine
end

