-- ==== Sys2Proof/Machine/Operands.lean ====
section
/-! DEFINITION. The encodings of fields in message bodies: numbers, states, masks and codes (R189), and their reading from a request's body (R190). -/

namespace Sys2Proof.Machine

/-! ## Sending fields (R189) -/

/-- A one-byte number. -/
def byteOf (n : Nat) : Byte := BitVec.ofNat 8 n

/-- A two-byte number, least significant byte first. -/
def wordOf (n : Nat) : List Byte := [byteOf n, byteOf (n / 256)]

/-- A number for a flag. -/
def bitOf (b : Bool) (place : Nat) : Nat := if b then 2 ^ place else 0

/-- A byte with bit n set for each place listed. -/
def maskOf (places : List Nat) : Byte := byteOf ((places.map fun n => 2 ^ n).sum)

/-- A phase (R189). -/
def phaseCode : Phase → Byte
  | .l1 => 1
  | .l2 => 2

/-- A generator state (R189). -/
def GenState.code : GenState → Byte
  | .absent => 0
  | .joined => 1
  | .ordered => 2
  | .yielding => 3
  | .stopped => 4
  | .disabled => 5

/-- A coil state (R189). -/
def CoilState.code : CoilState → Nat
  | .off _ => 0
  | .free => 1
  | .claimed _ => 2
  | .driven _ _ => 3
  | .releasing _ _ _ => 4
  | .transfer _ _ _ => 5
  | .switching _ _ => 6

/-- A pan state (R189). -/
def PanState.code : PanState → Nat
  | .free => 0
  | .present => 1
  | .lost => 2

/-- A permit state (R189). -/
def Permit.code : Permit → Byte
  | .unset => 0
  | .running _ => 1
  | .expired => 2

/-- The permit remaining, 0 while absent (R189). -/
def Permit.remaining : Permit → Nat
  | .running ms => ms
  | _ => 0

/-- A window mode (R189). -/
def WindowMode.code : WindowMode → Byte
  | .off => 0
  | .preset => 1
  | .exclude => 2

/-- A level source (R189). -/
def LevelSource.code : LevelSource → Nat
  | .panel => 0
  | .window => 1

/-- A pan timer in seconds; 0xFFFF is NONE (R189). -/
def timerCode (t : Option Nat) : List Byte := wordOf (t.getD 0xFFFF)

/-- A boost remaining in whole seconds, rounded up; 0xFFFF is absent (R189). -/
def boostCode : Option Nat → List Byte
  | some ms => wordOf ((ms + 999) / 1000)
  | none => wordOf 0xFFFF

/-- An event kind (R192). -/
def EventKind.code : EventKind → Byte
  | .panConfirmed => 0x01
  | .panRefused => 0x02
  | .panMoved => 0x03
  | .panLost => 0x04
  | .panReturned => 0x05
  | .panGone => 0x06
  | .levelSetByWindow => 0x07
  | .timerDone => 0x08
  | .boostEnded => 0x09
  | .powerReduced => 0x0A
  | .powerRestored => 0x0B
  | .panBarred => 0x0C
  | .panCleared => 0x0D
  | .coilFault => 0x0E
  | .generatorJoined => 0x0F
  | .generatorStopped => 0x10
  | .generatorStarved => 0x11
  | .shedStarted => 0x12
  | .shedDone => 0x13
  | .permitExpired => 0x14
  | .safeEntered => 0x15

/-- A stop cause (R192). -/
def StopCause.code : StopCause → Byte
  | .yieldTimeout => 0x01
  | .orderMismatch => 0x02
  | .shed => 0x03
  | .stopAll => 0x04
  | .disable => 0x05
  | .restart => 0x06
  | .safe => 0x07

/-- A table (R192). -/
def TableName.code : TableName → Byte
  | .coilMap => 0x21
  | .panTable => 0x22
  | .orders => 0x23
  | .levelTable => 0x24

/-- An event's cause field (R192). -/
def EventCause.code : EventCause → Byte
  | .stop c => c.code
  | .phase .l1 => 0x11
  | .phase .l2 => 0x12
  | .table t => t.code
  | .window w => 0x30 + byteOf w.val

/-- A slot and tag in one byte: bits 0 to 3 tag, bits 4 to 6 slot, bit 7 when present (R192). -/
def panCode (present : Bool) (slot : Slot) (tag : Nat) : Byte :=
  byteOf (tag + 16 * slot.val + bitOf present 7)

/-- The slot and tag field of an event. -/
def EventPan.code (p : EventPan) : Byte :=
  panCode true p.slot (match p.tag with
    | some t => t.val
    | none => 0)

/-- An event's 7 bytes (R192). -/
def Event.bytes (e : Event) : List Byte :=
  [e.kind.code] ++ wordOf e.stamp ++
    [match e.pan with
      | some p => p.code
      | none => 0,
     match e.gen with
      | some g => byteOf g.val
      | none => 0xFF,
     match e.coil with
      | some c => byteOf c.val
      | none => 0xFF,
     match e.cause with
      | some c => c.code
      | none => 0xFF]

/-- The sync and inverter byte of a leg (R191). -/
def Leg.syncByte (l : Leg) : Byte :=
  byteOf ((match l.inverter with
    | .a => 0
    | .b => 1) + 16 * l.sync.val + bitOf l.split 7)

/-- A leg's bytes in an ORDER reply (R191). -/
def Leg.bytes (l : Leg) : List Byte :=
  [l.syncByte, panCode false l.pan.slot l.pan.tag.val] ++ wordOf l.power ++ [byteOf l.coils.length] ++
    l.coils.map fun c => byteOf c.val

/-- An order's bytes in an ORDER reply, after the link flags (R191). -/
def Order.bytes (o : Order) : List Byte :=
  [o.number, byteOf o.legs.length] ++ o.legs.flatMap Leg.bytes

/-- A pan's 15 bytes in READ PANS, with its delivered power (R192). The bits that the layout does not name, 3, 6 and 7 of
the first byte and 7 of the flags, are sent as 0 (DESIGN CHOICE, assumption log 46). -/
def Pan.bytes (n : Slot) (delivered : Nat) (p : Pan) : List Byte :=
  [byteOf (n.val + 16 * p.state.code),
   byteOf p.tag.val,
   byteOf (p.level.val + 16 * (match p.window with
     | some w => w.val + 1
     | none => 0) + 128 * p.source.code),
   byteOf (bitOf p.held 0 + bitOf p.barred 1 + bitOf (p.short ≠ 0) 2 + bitOf (p.unserved ≠ 0) 3 + bitOf p.split 4 +
     bitOf p.autoHold 5 + bitOf p.holdOnLift 6),
   byteOf (match p.centre with
     | some k => k.col
     | none => 0),
   byteOf (match p.centre with
     | some k => k.row
     | none => 0),
   byteOf p.footprint.length] ++
  wordOf delivered ++ timerCode p.timer ++ wordOf (p.energy / 1000 / 3600 % 65536) ++ wordOf p.total

/-- A coil's 3 bytes in READ MAP, with its excluded state and owner (R192, R198). Bit 7 of the first byte, which the
layout does not name, is sent as 0 (DESIGN CHOICE, assumption log 46). -/
def Coil.bytes (excluded : Bool) (owner : Option PanId) (r : Coil) : List Byte :=
  [byteOf (r.state.code + bitOf (decide (r.driver = .alternate)) 3 + bitOf r.hot 4 + bitOf r.fault 5 + bitOf excluded 6),
   match owner with
     | some o => panCode true o.slot o.tag.val
     | none => 0,
   match r.coverage with
     | some v => byteOf v.val
     | none => 0xFF]

/-! ## Reading a body (R190) -/

/-- A number below a bound. -/
def below (n : Nat) (b : Byte) : Option (Fin n) := if h : b.toNat < n then some ⟨b.toNat, h⟩ else none

/-- A two-byte number, least significant byte first. -/
def wordFrom (lo hi : Byte) : Nat := lo.toNat + 256 * hi.toNat

/-- A phase; none for any other byte (R111). -/
def phaseFrom (b : Byte) : Option Phase :=
  if b = 1 then some .l1 else if b = 2 then some .l2 else none

/-- A window mode (R103). -/
def modeFrom (b : Byte) : Option WindowMode :=
  if b = 0 then some .off else if b = 1 then some .preset else if b = 2 then some .exclude else none

/-- The slots a mask names, in slot order (R92). -/
def maskSlots (m : Byte) : List Slot := allSlots.filter fun n => m.getLsbD n.val

/-- The generators a mask names, in generator-number order (R156). -/
def maskGens (m : Byte) : List Gen := allGens.filter fun g => m.getLsbD g.val

/-- The temperature classes (R20). -/
inductive TempClass where
  | normal
  | warm
  | hot
deriving DecidableEq, Repr

/-- A SWEEP entry (R20). -/
structure SweepEntry where
  coil : CoilNo
  coverage : Fin 16
  temp : TempClass
  fault : Bool
deriving DecidableEq, Repr

/-- A temperature class code; 3 is not a class (R190). -/
def tempFrom (status : Byte) : Option TempClass :=
  match status.toNat % 4 with
  | 0 => some .normal
  | 1 => some .warm
  | 2 => some .hot
  | _ => none

/-- A SWEEP entry from its three bytes (R190, R22). -/
def entryFrom (coil coverage status : Byte) : Option SweepEntry :=
  match below 48 coil, below 16 coverage, tempFrom status with
  | some c, some v, some t => some ⟨c, v, t, status.getLsbD 7⟩
  | _, _, _ => none

/-- The entries of a list of bytes, three each; none when one is out of range or bytes are left over (R22). -/
def entriesFrom : List Byte → Option (List SweepEntry)
  | [] => some []
  | a :: b :: c :: rest =>
    match entryFrom a b c, entriesFrom rest with
    | some e, some es => some (e :: es)
    | _, _ => none
  | _ => none

/-- The entries of a SWEEP's body; none when R22 refuses it. -/
def sweepFrom : List Byte → Option (List SweepEntry)
  | [] => none
  | n :: rest =>
    if 1 ≤ n.toNat ∧ n.toNat ≤ 24 ∧ rest.length = 3 * n.toNat then entriesFrom rest else none

/-- A CHECK TEST target (R171, R189). -/
inductive TestTarget where
  | none
  | coilMap
  | panTable
  | orders
  | link (l : Link)
deriving DecidableEq, Repr

/-- The target a byte names (R189). -/
def targetFrom (b : Byte) : Option TestTarget :=
  match b.toNat with
  | 0 => some .none
  | 1 => some .coilMap
  | 2 => some .panTable
  | 3 => some .orders
  | 4 => some (.link .pl)
  | 5 => some (.link (.gl 0))
  | 6 => some (.link (.gl 1))
  | 7 => some (.link (.gl 2))
  | 8 => some (.link (.gl 3))
  | 9 => some (.link .sl)
  | _ => Option.none

/-- A CONFIGURE parameter (R188). -/
inductive Param where
  /-- The entry of level n + 1; 12 is BOOST. -/
  | level (n : Fin 13)
  | phase (g : Gen)
  | lostTime
  | orderLease
  | yieldTimeout
  | collectionTime
  | repeatLimit
  | confirmCount
  | boostDuration
  | shedDeadline
deriving DecidableEq, Repr

/-- The parameter a code names (R188). -/
def paramFrom (b : Byte) : Option Param :=
  let n := b.toNat
  if h : 1 ≤ n ∧ n ≤ 13 then some (.level ⟨n - 1, by omega⟩)
  else if h : 16 ≤ n ∧ n ≤ 19 then some (.phase ⟨n - 16, by omega⟩)
  else match n with
    | 0x20 => some .lostTime
    | 0x21 => some .orderLease
    | 0x22 => some .yieldTimeout
    | 0x23 => some .collectionTime
    | 0x24 => some .repeatLimit
    | 0x25 => some .confirmCount
    | 0x26 => some .boostDuration
    | 0x27 => some .shedDeadline
    | _ => none

end Sys2Proof.Machine
end

