-- ==== Sys2Proof/Machine/Links.lean ====
section
/-! DEFINITION. Bytes on a line and replies on the links: the bits of a byte and its errors, the rates, the CRC, what a request is answered, and the sending of a reply with its link flags and CHECK (chapter 10). -/

namespace Sys2Proof.Machine

/-! ## Bytes on a line (R179) -/

/-- A byte as a link delivers it: its eight data bits and the two errors noted against it (R179). -/
structure RxByte where
  data : Byte
  parityErr : Bool
  framingErr : Bool
deriving DecidableEq, Repr

/-- The data bits and the parity bit hold an odd number of ones. -/
def oddOnes (w : LineByte) : Bool := decide (((List.range 9).countP fun i => w.getLsbD i) % 2 = 1)

/-- What the part receives (R179): the data bits with the value received, a parity error when the nine bits hold an
odd number of ones, a framing error when the stop bit is low. -/
def receivedByte (w : LineByte) : RxByte := ⟨w.setWidth 8, oddOnes w, !w.getLsbD 9⟩

/-- A byte as the part sends it: even parity and a stop bit (R179). -/
def lineByte (b : Byte) : LineByte :=
  let w := 0x200 ||| b.setWidth 10
  if oddOnes w then 0x100 ||| w else w

/-- The levels of a line over one byte, in the order sent: a low start bit, then the ten bits. -/
def lineLevels (w : LineByte) : List Bool := false :: (List.range 10).map w.getLsbD

/-- The rate in baud that the straps RATE1:0 choose (00 section 6). -/
def baudOf (straps : BitVec 2) : Nat :=
  match straps.toNat with
  | 0 => 115200
  | 1 => 230400
  | 2 => 460800
  | _ => 921600

/-- The rate of all six links (R179). -/
def State.baud (s : State) : Nat := baudOf s.rate

/-! ## CRC (R180) -/

/-- One step of the CRC register. -/
def crcStep (r : Byte) : Byte := if r.msb then (r <<< 1) ^^^ 0x35 else r <<< 1

/-- A byte into the CRC register. -/
def crcByte (r b : Byte) : Byte :=
  crcStep (crcStep (crcStep (crcStep (crcStep (crcStep (crcStep (crcStep (r ^^^ b))))))))

/-- The CRC of the bytes from LEN to the last BODY byte. -/
def crc (bytes : List Byte) : Byte := bytes.foldl crcByte 0xFF

/-- The bytes of a message from LEN to the last BODY byte. -/
def Message.bytes (m : Message) : List Byte := byteOf (min 255 m.body.length) :: m.kind :: m.body

/-- The bytes of a message as its sender sends them, SYNC first (R180). -/
def Message.frame (m : Message) : List Byte := 0xC3 :: m.bytes ++ [crc m.bytes]

/-! ## Answers (R185) -/

/-- The refusal reasons (R185). -/
inductive Reason where
  | wrongLink | unknownKind | outOfRange | noPan | stale | busy | safe | notJoined | stopped | disabled
  | orderMismatch | starved
deriving DecidableEq, Repr

/-- A refusal reason's code (R185). -/
def Reason.code : Reason → Byte
  | .wrongLink => 0x01
  | .unknownKind => 0x02
  | .outOfRange => 0x03
  | .noPan => 0x04
  | .stale => 0x05
  | .busy => 0x06
  | .safe => 0x07
  | .notJoined => 0x08
  | .stopped => 0x09
  | .disabled => 0x0A
  | .orderMismatch => 0x0B
  | .starved => 0x0C

/-- What a message is answered: the reply kind with the body that follows the link flags. -/
inductive Answer where
  | done (fields : List Byte)
  | wait (fields : List Byte)
  | order (fields : List Byte)
  | refused (r : Reason)
  | badFrame (cause : Byte)
deriving DecidableEq, Repr

/-- The reply kind's code (R185). -/
def Answer.kind : Answer → Byte
  | .done _ => 0x81
  | .wait _ => 0x82
  | .order _ => 0x83
  | .refused _ => 0x84
  | .badFrame _ => 0x85

/-- The reply's body after the link flags (R185). -/
def Answer.fields : Answer → List Byte
  | .done fs => fs
  | .wait fs => fs
  | .order fs => fs
  | .refused r => [r.code]
  | .badFrame c => [c]

/-- The cause a BAD FRAME names: the first in the order PARITY, FRAMING, LENGTH, CHECK, GAP (R181, R185). -/
def causeCode (c : Causes) : Byte :=
  if c.parity then 0x01 else if c.framing then 0x02 else if c.length then 0x03 else if c.check then 0x04 else 0x05

/-! ## Sending (R173, R183, R185) -/

/-- The message is a CHECK TEST that names this link (R171). -/
def namesLink (m : Message) (l : Link) : Bool :=
  decide (m.kind = ReqKind.checkTest.code) &&
    match m.body with
    | [b] => decide (targetFrom b = some (.link l))
    | _ => false

/-- PL holds a taken CHECK TEST that names this link, whose own reply has not been sent (R173; assumption log 9). -/
def State.testReplyUnsent (s : State) (l : Link) : Bool :=
  match (s.port .pl).rx with
  | .inHand (some m) _ r => decide (r.kind = 0x81) && namesLink m l
  | _ => false

/-- The message is a CHECK TEST on PL, the link that serves it: the mark of PL is not looked at for its own reply
(R185; assumption log 9). A CHECK TEST refused with WRONG LINK on another link is no exception there (DESIGN CHOICE,
assumption log 38). -/
def ownTest (l : Link) (message : Option Message) : Bool :=
  match message with
  | some m => decide (l = .pl ∧ m.kind = ReqKind.checkTest.code)
  | none => false

/-- The mark of the link fires at this reply (R173, R185; assumption log 9). -/
def State.markFires (s : State) (l : Link) (message : Option Message) : Bool :=
  (s.port l).forcedBad && !ownTest l message && !s.testReplyUnsent l

/-- The reply's bytes as sent, with its CHECK inverted when the mark fires (R180, R185). -/
def makeReply (kind : Byte) (body : List Byte) (fires : Bool) : Reply :=
  let check := crc (byteOf body.length :: kind :: body)
  ⟨kind, body, if fires then check ^^^ 0xFF else check⟩

/-- The bytes of a reply as the line carries them, sent back to back (R179, R180). -/
def Reply.onLine (r : Reply) : List LineByte :=
  (0xC3 :: byteOf r.body.length :: r.kind :: r.body ++ [r.check]).map lineByte

/-- Begin the reply on a link: the port goes IN HAND, the flags are assembled and OVERRUN is cleared (R183, R185). -/
def State.reply (s : State) (l : Link) (message : Option Message) (causes : Causes) (a : Answer) : State :=
  let fires := s.markFires l message
  s.setPort l {
    rx := .inHand message causes (makeReply a.kind (s.linkFlags l :: a.fields) fires)
    overrun := false
    forcedBad := (s.port l).forcedBad && !fires }

/-- A message ends as bad: the port answers BAD FRAME (R181). -/
def State.endBad (s : State) (l : Link) (causes : Causes) : State :=
  s.reply l none causes (.badFrame (causeCode causes))

end Sys2Proof.Machine
end

