-- ==== Sys2Proof/Machine/Enable.lean ====
section
/-! DEFINITION. ENABLE GENERATORS, and the coils of a generator that leaves or comes back (R14 to R16, R61, R156, R157, R186). -/

namespace Sys2Proof.Machine

/-! ## A home generator leaves (R15, R61) -/

/-- A home coil's record as its home generator leaves (R15): off pending in an order its alternate still holds,
OFF otherwise. -/
def Coil.leaveHome (r : Coil) : Coil :=
  match r.state with
  | .driven _ n => { r with coverage := none, state := .releasing none n true }
  | .transfer _ n _ => { r with coverage := none, state := .releasing none n true }
  | .releasing _ n _ => { r with coverage := none, state := .releasing none n true }
  | .off _ => r
  | _ => r.toOff

/-- A pan's footprint without a coil (R41, R61). -/
def Pan.without (c : CoilNo) (p : Pan) : Pan := { p with footprint := p.footprint.filter fun d => decide (d ≠ c) }

/-- One home coil goes out of service, and its owner's footprint loses it (R15, R61). -/
def coilLeaves (c : CoilNo) : Op := fun s =>
  let owner := (s.coil c).state.owner
  (editCoil c Coil.leaveHome s).andThen fun s =>
    match owner with
    | some o => if (s.pan o.slot).tag = o.tag then editPan o.slot (Pan.without c) s else .ok s
    | none => .ok s

/-- PAN MOVED for each pan that lost a coil and keeps some (R61), in slot order once every home coil has gone (DESIGN
CHOICE, assumption log 43). -/
def postShrunk (before s : State) : State :=
  allSlots.foldl (fun s n =>
    if (s.pan n).state = .present ∧ (s.pan n).footprint ≠ [] ∧ (s.pan n).footprint ≠ (before.pan n).footprint then
      s.postPan .panMoved (s.panId n)
    else s) s

/-- The orders of other generators that lose a coil of a leg (R8, R15). -/
def State.robbedBy (s : State) (g : Gen) : List Gen :=
  ((homeCoils g).filter fun c => (s.coil c).state.inLeg).map s.driverGen

/-- A generator's home coils go out of service, and its alternate-driven coils in no order return to rest
(R14, R15); then the orders that lost a coil are reported (assumption log 18). The coils go in coil-number order, the
owner's pan record after each home coil (DESIGN CHOICE, assumption log 40). A coil that the stop has released is written once
more here (DEDUCED, assumption log 24). -/
def coilsLeave (g : Gen) : Op := fun s =>
  (forEach coilLeaves (homeCoils g) s).andThen fun t =>
    (forEach (fun c => editCoil c (relayTo c .home))
      ((allCoils.filter fun c => decide (altGen c = some g ∧ (t.coil c).driver = .alternate))) (postShrunk s t)).andThen
      (reportAll (s.robbedBy g))

/-! ## Disable and enable (R156, R157, R186) -/

/-- A disable discards the partial message of a RECEIVING port (R186). -/
def State.discardPartial (s : State) (g : Gen) : State :=
  match (s.port (.gl g)).rx with
  | .receiving _ _ _ => s.setPort (.gl g) { s.port (.gl g) with rx := .idle }
  | _ => s

/-- A generator named for disable (R156). The partial message of its port is discarded first (R186; DESIGN CHOICE,
assumption log 36). -/
def disableGen (g : Gen) : Op := fun s =>
  match (s.desk g).state with
  | .disabled => .ok s
  | .absent =>
    .ok (((s.discardPartial g).setDesk g { s.desk g with state := .disabled }).postStopped g .disable)
  | _ => (stopGen g .disable (s.discardPartial g)).andThen (coilsLeave g)

/-- The fault flag cleared (R16). -/
def Coil.repaired (r : Coil) : Coil := { r with fault := false }

/-- A generator named for enable (R157, R16), its home coils written in coil-number order (DESIGN CHOICE, assumption
log 40). -/
def enableGen (g : Gen) : Op := fun s =>
  if (s.desk g).state = .disabled then
    forEach (fun c => editCoil c Coil.repaired) (homeCoils g) (s.setDesk g { s.desk g with state := .absent })
  else .ok s

/-- The generators named, handled in generator-number order (R156). -/
def switchGens (enable disable : List Gen) : Op :=
  forEach (fun g s =>
    if g ∈ disable then disableGen g s else if g ∈ enable then enableGen g s else .ok s) allGens

/-- ENABLE GENERATORS, taken (R156): one evaluation when at least one generator became DISABLED. -/
def enableGens (enable disable : List Gen) : Op := fun s =>
  let leaving := disable.any fun g => decide ((s.desk g).state ≠ .disabled)
  (switchGens enable disable s).andThen fun t => (doIf leaving evaluate t).andThen (settle s)

/-- ENABLE GENERATORS (R156). -/
def serveEnable (body : List Byte) (s : State) : State × Answer :=
  if s.safe then (s, .refused .safe)
  else match body with
    | [e, d] =>
      if 16 ≤ e.toNat ∨ 16 ≤ d.toNat ∨ e &&& d ≠ 0 then (s, .refused .outOfRange)
      else
        let u := (enableGens (maskGens e) (maskGens d) s).state
        (u, .done (allGens.map fun g => (u.desk g).state.code))
    | _ => (s, .refused .outOfRange)

end Sys2Proof.Machine
end

