-- ==== Sys2Proof/Machine/Generator.lean ====
section
/-! DEFINITION. The requests of a generator: HELLO, SWEEP and FETCH (R16, R20 to R28, R142 to R148). -/

namespace Sys2Proof.Machine

/-- The generator is JOINED, ORDERED or YIELDING. -/
def GenState.inService : GenState → Bool
  | .joined => true
  | .ordered => true
  | .yielding => true
  | _ => false

/-! ## HELLO (R142) -/

/-- A home coil's record at its home generator's HELLO (R16). -/
def Coil.comeBack (r : Coil) : Coil :=
  let r := r.repaired
  match r.state with
  | .off none => { r with coverage := none, state := .free }
  | .off (some left) => { r with coverage := none, state := .switching none left }
  | .releasing o n _ => { r with state := .releasing o n false }
  | _ => r

/-- HELLO, taken (R142), the home coils written in coil-number order (R16; DESIGN CHOICE, assumption log 40),
those of the released order for a second time (DEDUCED, assumption log 24). -/
def hello (g : Gen) : Op := fun s =>
  let was := (s.desk g).state
  (releaseOrder g false s).andThen fun t =>
    let t := if (t.desk g).order.isSome then t.dropOrderPosting g else t
    let t := t.emptyMemory g
    let t := t.setDesk g { (t.desk g).emptied was with lastConfirmed := 0 }
    (forEach (fun c => editCoil c Coil.comeBack) (homeCoils g) t).andThen fun t =>
      let t := (t.setDesk g { t.desk g with state := .joined }).postGen .generatorJoined g
      (doIf (!was.inService) replanPass t).andThen (settle s)

/-- The fields of the DONE of HELLO (R142, R190). -/
def State.helloFields (s : State) (g : Gen) : List Byte :=
  [byteOf g.val, phaseCode (s.genPhase g)] ++ wordOf s.params.orderLease ++ [byteOf s.params.yieldTimeout]

/-- HELLO (R142). -/
def serveHello (g : Gen) (s : State) : State × Answer :=
  if s.safe then (s, .refused .safe)
  else if (s.desk g).state = .disabled then (s, .refused .disabled)
  else match hello g s with
    | .ok t => (t, .done (t.helloFields g))
    | .safe t => (t, .refused .safe)

/-! ## SWEEP (R20 to R28) -/

/-- The hot flag after a report (R4). -/
def TempClass.hotAfter (old : Bool) : TempClass → Bool
  | .normal => false
  | .warm => old
  | .hot => true

/-- A coil record as an applied entry writes it (R4, R5). -/
def Coil.apply (e : SweepEntry) (r : Coil) : Coil :=
  { r with coverage := some e.coverage, hot := e.temp.hotAfter r.hot, fault := r.fault || e.fault }

/-- The entry passes the four tests of R23. -/
def State.applies (s : State) (g : Gen) (e : SweepEntry) : Bool :=
  reaches g e.coil && decide (s.driverGen e.coil = g) &&
    match (s.coil e.coil).state with
    | .off _ => false
    | .switching _ _ => false
    | .releasing _ _ true => false
    | _ => true

/-- The entry makes a coil of a leg unfit (R6, R25). -/
def unfits (e : SweepEntry) (r : Coil) : Bool :=
  r.state.inLeg && ((!r.hot && (r.apply e).hot) || (!r.fault && (r.apply e).fault))

/-- Apply an entry that passes its tests (R23, R25). -/
def applyEntry (g : Gen) (e : SweepEntry) : Op := fun s =>
  let raised := !(s.coil e.coil).fault && e.fault
  (rewriteCoil e.coil (Coil.apply e) s).andThen fun s =>
    .ok (if raised then s.postFault e.coil g else s)

/-- How the entries of a SWEEP went. -/
structure Intake where
  flow : Flow
  ignored : Nat
  /-- The orders with a coil that became unfit (R25). -/
  affected : List Gen
deriving DecidableEq, Repr

/-- Apply the entries one after another (R23, R24). After a failed check the entries not yet applied count as
ignored (R28). -/
def applyEntries (g : Gen) : List SweepEntry → Nat → List Gen → State → Intake
  | [], ignored, affected, s => ⟨.ok s, ignored, affected⟩
  | e :: rest, ignored, affected, s =>
    match checkCoil e.coil s with
    | .safe t => ⟨.safe t, ignored + (rest.length + 1), affected⟩
    | .ok s =>
      if s.applies g e then
        let more := if unfits e (s.coil e.coil) then [s.driverGen e.coil] else []
        match applyEntry g e s with
        | .safe t => ⟨.safe t, ignored + (rest.length + 1), affected⟩
        | .ok t => applyEntries g rest ignored (affected ++ more) t
      else applyEntries g rest (ignored + 1) affected s

/-- SWEEP, taken: the entries, the reports of R25, one evaluation (R26). -/
def sweep (g : Gen) (entries : List SweepEntry) (s : State) : Flow × Nat :=
  let i := applyEntries g entries 0 [] s
  (i.flow.andThen fun t => (reportAll i.affected t).andThen fun t => (evaluate t).andThen (settle s), i.ignored)

/-- SWEEP (R21, R22). -/
def serveSweep (g : Gen) (body : List Byte) (s : State) : State × Answer :=
  if s.safe then (s, .refused .safe)
  else if (s.desk g).state = .disabled then (s, .refused .disabled)
  else if (s.desk g).state = .absent then (s, .refused .notJoined)
  else match sweepFrom body with
    | some entries =>
      let r := sweep g entries s
      (r.1.state, .done [byteOf r.2])
    | none => (s, .refused .outOfRange)

/-! ## FETCH (R143 to R148) -/

/-- The inverter memory that an order's legs write (R129). -/
def Order.memory (o : Order) : List MemoryEntry := o.legs.map fun l => ⟨l.pan, l.inverter⟩

/-- Confirmation of the ISSUED order of this number (R144). -/
def confirm (g : Gen) (o : Order) : Op := fun s =>
  (releaseOrder g false s).andThen fun s =>
    let s := s.dropOrderPosting g
    let s := s.setAlloc g { s.alloc g with memory := o.memory }
    .ok (s.setDesk g { s.desk g with state := .joined, lease := none, yield := none, lastConfirmed := o.number })

/-- The WAIT of a FETCH (R143, R185). -/
def State.waitFields (s : State) (g : Gen) : List Byte :=
  [byteOf (s.desk g).repeats, byteOf s.params.repeatLimit]

/-- The ORDER reply of the order a generator holds (R143, R191). -/
def State.orderFields (s : State) (g : Gen) : List Byte :=
  match (s.desk g).order with
  | some o => o.bytes
  | none => []

/-- What a FETCH is answered by work that delivers. -/
def Flow.delivered (f : Flow) (g : Gen) : State × Answer :=
  match f with
  | .ok s => (s, .order (s.orderFields g))
  | .safe s => (s, .refused .safe)

/-- The desk WAITING for this entry with this repeat count (R147, R148). -/
def State.waitAt (s : State) (g : Gen) (entry : Byte) (repeats : Nat) : State × Answer :=
  let t := s.setDesk g { s.desk g with desk := .waiting entry, repeats := repeats }
  (t, .wait (t.waitFields g))

/-- The fetch is starved (R148). -/
def State.starve (s : State) (g : Gen) : State × Answer :=
  ((s.setDesk g { s.desk g with desk := .empty, repeats := 0 }).postGen .generatorStarved g, .refused .starved)

/-- Delivery (R147, R148). -/
def delivery (g : Gen) (n : Byte) (s : State) : State × Answer :=
  match (s.desk g).desk with
  | .complete _ => (deliver g s).delivered g
  | .empty =>
    if s.waitBlocked g then s.waitAt g n 1
    else ((buildOrder g s).andThen (deliver g)).delivered g
  | .waiting entry =>
    if entry = n then
      if s.params.repeatLimit < (s.desk g).repeats + 1 then s.starve g
      else s.waitAt g entry ((s.desk g).repeats + 1)
    else s.waitAt g n 1

/-- A FETCH that names a number other than the ISSUED order's: the generator is stopped (R146). -/
def mismatchStop (g : Gen) : Op := fun s =>
  (stopGen g .orderMismatch s).andThen fun t => (replanPass t).andThen (settle s)

/-- The ISSUED order a generator holds. -/
def State.issuedOrder (s : State) (g : Gen) : Option Order :=
  match (s.desk g).order with
  | some ⟨n, .issued t, legs, charge, ok⟩ => some ⟨n, .issued t, legs, charge, ok⟩
  | _ => none

/-- A FETCH, served (R143, R144, R146). -/
def fetch (g : Gen) (n : Byte) (s : State) : State × Answer :=
  match s.issuedOrder g with
  | some o =>
    if n = o.number then
      match confirm g o s with
      | .ok t => delivery g n t
      | .safe t => (t, .refused .safe)
    else
      match mismatchStop g s with
      | .ok t => (t, .refused .orderMismatch)
      | .safe t => (t, .refused .safe)
  | none =>
    if n = 0 ∨ n = (s.desk g).lastConfirmed then delivery g n s else (s, .refused .orderMismatch)

/-- FETCH (R143). -/
def serveFetch (g : Gen) (body : List Byte) (s : State) : State × Answer :=
  if s.safe then (s, .refused .safe)
  else match (s.desk g).state with
    | .stopped => (s, .refused .stopped)
    | .disabled => (s, .refused .disabled)
    | .absent => (s, .refused .notJoined)
    | _ =>
      match body with
      | [n] => fetch g n s
      | _ => (s, .refused .outOfRange)

end Sys2Proof.Machine
end

