-- ==== Sys2Proof/Machine/Supply.lean ====
section
/-! DEFINITION. SET CAP and SHED (R111 to R113, R115). -/

namespace Sys2Proof.Machine

/-- The generators of a phase with a nonzero charge, in generator-number order (R115, R117). -/
def State.chargedOn (s : State) (p : Phase) : List Gen :=
  allGens.filter fun g => decide (s.genPhase g = p ∧ s.charge g ≠ 0)

/-- A target at or above the load: T and C take it, and a pending shed ends (R111 to R113, R116). -/
def State.settleCap (s : State) (p : Phase) (target : Nat) : State :=
  let a := s.account p
  let t := s.setAccount p { a with target := target, committed := target, shed := none }
  if a.shed.isSome then t.postShed .shedDone p else t

/-- A target below the load: a shed starts or replaces the pending one, and a lowering is reported (R112, R113,
R115). -/
def startShed (p : Phase) (target deadline : Nat) : Op := fun s =>
  let a := s.account p
  let t := s.setAccount p { a with target := target, shed := some ⟨deadline, deadline⟩ }
  if a.shed.isSome then
    if target < a.target then reportAll (t.chargedOn p) t else .ok t
  else
    let t := t.postShed .shedStarted p
    reportAll (t.chargedOn p) t

/-- The request repeats the pending shed (R113). -/
def State.repeatsShed (s : State) (p : Phase) (target deadline : Nat) : Bool :=
  match (s.account p).shed with
  | some x => decide (target = (s.account p).target ∧ deadline = x.deadline)
  | none => false

/-- Move the target of a phase (R111 to R113). -/
def moveTarget (p : Phase) (target deadline : Nat) : Op := fun s =>
  if s.repeatsShed p target deadline then .ok s
  else if (s.account p).load ≤ target then .ok (s.settleCap p target)
  else startShed p target deadline s

/-- The fields of the replies to SET CAP and SHED (R111, R112). -/
def State.capFields (s : State) (p : Phase) : List Byte :=
  let a := s.account p
  wordOf a.target ++ wordOf a.committed ++ wordOf a.load ++ [byteOf (bitOf a.shed.isSome 0)] ++
    wordOf ((a.shed.map (·.remaining)).getD 0)

/-- A target cap in range: at most 7,400 W, in 10 W steps (R111, R112). -/
def capFrom (lo hi : Byte) : Option Nat :=
  if wordFrom lo hi ≤ Config.maxCap ∧ wordFrom lo hi % 10 = 0 then some (wordFrom lo hi) else none

/-- A shed deadline in range (R112). -/
def deadlineFrom (lo hi : Byte) : Option Nat :=
  if 100 ≤ wordFrom lo hi ∧ wordFrom lo hi ≤ 10000 then some (wordFrom lo hi) else none

/-- SET CAP, taken: answered DONE (R111). -/
def setCap (p : Phase) (power : Nat) (s : State) : State × Answer :=
  let u := (moveTarget p power s.params.shedDeadline s).state
  (u, .done (u.capFields p))

/-- SET CAP (R111). -/
def serveSetCap (body : List Byte) (s : State) : State × Answer :=
  if s.safe then (s, .refused .safe)
  else match body with
    | [a, lo, hi] =>
      match phaseFrom a, capFrom lo hi with
      | some p, some power => setCap p power s
      | _, _ => (s, .refused .outOfRange)
    | _ => (s, .refused .outOfRange)

/-- SHED, taken: WAIT while the shed is pending, DONE otherwise (R112, R113). -/
def shedTo (p : Phase) (target deadline : Nat) (s : State) : State × Answer :=
  let u := (moveTarget p target deadline s).state
  (u, if (u.account p).shed.isSome then .wait (u.capFields p) else .done (u.capFields p))

/-- SHED (R112). -/
def serveShed (body : List Byte) (s : State) : State × Answer :=
  if s.safe then (s, .refused .safe)
  else match body with
    | [a, lo, hi, dlo, dhi] =>
      match phaseFrom a, capFrom lo hi, deadlineFrom dlo dhi with
      | some p, some target, some deadline => shedTo p target deadline s
      | _, _, _ => (s, .refused .outOfRange)
    | _ => (s, .refused .outOfRange)

end Sys2Proof.Machine
end

