-- ==== Sys2Proof/Machine/Time.lean ====
section
/-! DEFINITION. The 1 ms time base: what one millisecond counts, and which expiries have fallen due (00 section 4; R12, R59, R95, R97, R107, R141, R161, R178). -/

namespace Sys2Proof.Machine

/-- A count that runs down; one that has run out stays at 0. -/
def downOne (c : Option Nat) : Option Nat := c.map (· - 1)

/-- A relay movement counts (R12). -/
def Coil.tick (r : Coil) : Coil :=
  match r.state with
  | .off m => { r with state := .off (downOne m) }
  | .switching o left => { r with state := .switching o (left - 1) }
  | _ => r

/-- A shed deadline counts (R107). -/
def Account.tick (a : Account) : Account :=
  { a with shed := a.shed.map fun x => { x with remaining := x.remaining - 1 } }

/-- The four timers of a desk count (R141). -/
def Desk.tick (d : Desk) : Desk :=
  { d with lease := downOne d.lease, yield := downOne d.yield, collection := downOne d.collection,
           hold := downOne d.hold }

/-- The permit remaining counts (R161). -/
def Permit.tick : Permit → Permit
  | .running ms => .running (ms - 1)
  | p => p

/-- The gap timer counts (R178, R181). -/
def Port.tick (p : Port) : Port :=
  match p.rx with
  | .receiving bytes causes gap => { p with rx := .receiving bytes causes (min Config.gapPassed (gap + 1)) }
  | _ => p

/-- A slot's part-second after a millisecond (R95); 1,000 has still to be taken by PART_SECOND_ELAPSED. -/
def State.nextPartSecond (s : State) (n : Slot) : Nat :=
  if s.heating n = true ∧ (s.pan n).timer.isSome = true then min 1000 (s.partSecond n + 1) else s.partSecond n

/-- The slot holds a lost remaining or a boost remaining that counts (R59, R97). -/
def State.panCounts (s : State) (n : Slot) : Bool :=
  decide ((s.pan n).state = .lost ∧ (s.pan n).lostRemaining.getD 0 ≠ 0) ||
    (s.heating n && decide ((s.pan n).boost.getD 0 ≠ 0))

/-- A pan record after a millisecond (R59, R97). -/
def Pan.tick (heating : Bool) (p : Pan) : Pan :=
  { p with lostRemaining := if p.state = .lost then downOne p.lostRemaining else p.lostRemaining
           boost := if heating then downOne p.boost else p.boost }

/-- What counts outside the pan records in a millisecond. -/
def State.tickCounts (s : State) : State :=
  { s with
    now := s.now + 1
    coils := s.coils.map Coil.tick
    partSeconds := Vector.ofFn fun n => s.nextPartSecond n
    accounts := s.accounts.map Account.tick
    desks := s.desks.map Desk.tick
    permit := s.permit.tick
    ports := s.ports.map Port.tick }

/-- One millisecond of the time base. The counts of the pan records are updates of those records (R63;
assumption log 8), made in slot order (DESIGN CHOICE, assumption log 42). -/
def millisecond : Op := fun s =>
  forEach (fun n => editPan n (Pan.tick (s.heating n))) (allSlots.filter s.panCounts) s.tickCounts

/-- So many milliseconds pass, and nothing else happens. -/
def elapse : Nat → State → State
  | 0, s => s
  | k + 1, s => elapse k (millisecond s).state

/-! ## How long until an expiry: none when its count does not run -/

/-- Until a coil's relay stops moving (R12, R13). -/
def State.untilSwitchEnd (c : CoilNo) (s : State) : Option Nat :=
  match (s.coil c).state with
  | .off m => m
  | .switching _ left => some left
  | _ => none

/-- Until a LOST pan is gone (R59, R60). -/
def State.untilGone (n : Slot) (s : State) : Option Nat :=
  if (s.pan n).state = .lost then (s.pan n).lostRemaining else none

/-- Until the pan timer counts a second down (R95). -/
def State.untilSecond (n : Slot) (s : State) : Option Nat :=
  if s.heating n = true ∧ (s.pan n).timer.getD 0 ≠ 0 then some (1000 - s.partSecond n) else none

/-- Until the boost ends (R97). -/
def State.untilBoostEnd (n : Slot) (s : State) : Option Nat := if s.heating n then (s.pan n).boost else none

/-- Until the permit expires (R161). -/
def State.untilPermitEnd (s : State) : Option Nat :=
  match s.permit with
  | .running ms => some ms
  | _ => none

/-- Until a shed's deadline (R107, R117). -/
def State.untilDeadline (p : Phase) (s : State) : Option Nat := (s.account p).shed.map (·.remaining)

/-- Until the gap timer passes 5 ms (R181). -/
def State.untilGap (l : Link) (s : State) : Option Nat :=
  match (s.port l).rx with
  | .receiving _ _ gap => some (Config.gapPassed - gap)
  | _ => none

/-- A WAITING desk whose wait test passes (R149). -/
def State.waitIsOver (s : State) (g : Gen) : Bool :=
  match (s.desk g).desk with
  | .waiting _ => !s.waitBlocked g
  | _ => false

/-- A pan timer that stands at 0 on a heating-eligible pan (R91). -/
def State.timerDue (s : State) (n : Slot) : Bool := s.heating n && decide ((s.pan n).timer = some 0)

/-- The links. -/
def allLinks : List Link := .pl :: allGens.map .gl ++ [.sl]

/-- The expiries that have fallen due. -/
def State.dues (s : State) : List Instr :=
  ((allCoils.filter fun c => decide (s.untilSwitchEnd c = some 0)).map .switchEnd) ++
  ((allSlots.filter fun n => decide (s.untilGone n = some 0)).map .lostTimeExpiry) ++
  ((allSlots.filter fun n => decide (s.untilSecond n = some 0)).map .partSecondElapsed) ++
  ((allSlots.filter s.timerDue).map .timerDone) ++
  ((allSlots.filter fun n => decide (s.untilBoostEnd n = some 0)).map .boostEnded) ++
  (if s.untilPermitEnd = some 0 then [.permitExpired] else []) ++
  (([.l1, .l2].filter fun p => decide (s.untilDeadline p = some 0)).map .shedDeadlineExpiry) ++
  ((allGens.filter fun g => decide ((s.desk g).lease = some 0)).map .leaseExpiry) ++
  ((allGens.filter fun g => decide ((s.desk g).yield = some 0)).map .yieldTimeout) ++
  ((allGens.filter fun g => decide ((s.desk g).collection = some 0)).map .collectionExpiry) ++
  ((allGens.filter fun g => decide ((s.desk g).hold = some 0)).map .holdEnd) ++
  ((allLinks.filter fun l => decide (s.untilGap l = some 0)).map .gapTimeout) ++
  ((allGens.filter s.waitIsOver).map .waitConditionCleared)

end Sys2Proof.Machine
end

