-- ==== Sys2Proof/Machine/Expiries.lean ====
section
/-! DEFINITION. The meanings of the expiry commands: relay switches, pans, the permit, sheds, the desks' timers and the clearing of a wait (R13, R60, R95 to R97, R117, R149 to R154, R163). -/

namespace Sys2Proof.Machine

/-- The expiry of a count: nothing while RST is low or the count does not run; else the time base runs until the
count has run out (assumption log 4), and the expiry is taken if it then stands run out. -/
def expire (until_ : State → Option Nat) (work : Op) (s : State) : Host.Outcome State Fault Refusal :=
  if s.rstLow then .next s
  else match until_ s with
    | none => .next s
    | some left =>
      let t := elapse left s
      .next (if until_ t = some 0 then (work t).state else t)

/-! ## Relay switches (R13) -/

/-- A coil record as its relay stops moving (R13). -/
def Coil.endSwitch (r : Coil) : Coil :=
  match r.state with
  | .off _ => { r with state := .off none }
  | .switching none _ => { r with state := .free }
  | .switching (some o) _ => { r with state := .claimed o }
  | _ => r

/-- The coil is driven by an alternate generator that is DISABLED or ABSENT (R13). -/
def State.strayed (s : State) (c : CoilNo) : Bool :=
  decide ((s.coil c).driver = .alternate) &&
    match altGen c with
    | some g => decide ((s.desk g).state = .disabled ∨ (s.desk g).state = .absent)
    | none => false

/-- The end of a relay switch (R13). The record is written as CLAIMED or FREE, and once more when a return or a new relay
change starts at once (DESIGN CHOICE, assumption log 48). -/
def endSwitch (c : CoilNo) : Op := fun s =>
  (editCoil c Coil.endSwitch s).andThen fun t =>
    (if t.strayed c then editCoil c (relayTo c .home) t else followPlan c t : Flow).andThen (settle s)

/-- SWITCH_END (R13). -/
def execSwitchEnd (c : CoilNo) (s : State) : Host.Outcome State Fault Refusal :=
  expire (State.untilSwitchEnd c) (endSwitch c) s

/-! ## Pans (R60, R95 to R97) -/

/-- A LOST pan is gone (R60). -/
def panGone (n : Slot) : Op := fun s =>
  (editPan n (fun p => Pan.freed p.tag) s).andThen fun t =>
    settle s (({ t with priority := t.priority.erase n }.setPartSecond n 0).postPan .panGone (t.panId n))

/-- LOST_TIME_EXPIRY (R60). -/
def execLostTimeExpiry (n : Slot) (s : State) : Host.Outcome State Fault Refusal :=
  expire (State.untilGone n) (panGone n) s

/-- A second of the pan timer has passed (R95, R96). The decrement writes the record, and a completion that follows writes it
once more (DESIGN CHOICE, assumption log 48). -/
def secondElapsed (n : Slot) : Op := fun s =>
  (decrementTimer n s).andThen fun t => (completeIfDue n t).andThen (settle s)

/-- PART_SECOND_ELAPSED (R95). -/
def execPartSecondElapsed (n : Slot) (s : State) : Host.Outcome State Fault Refusal :=
  expire (State.untilSecond n) (secondElapsed n) s

/-- The pan timer runs down over so many seconds, and nothing else happens. -/
def runTimer (n : Slot) : Nat → State → State
  | 0, s => s
  | k + 1, s =>
    match s.untilSecond n with
    | none => s
    | some left => runTimer n k (decrementTimer n (elapse left s)).state

/-- A pan timer that stands at 0 completes (R96). -/
def timerCompletes (n : Slot) : Op := fun s => (completeIfDue n s).andThen (settle s)

/-- TIMER_DONE (R96): the time base runs until the timer of a heating-eligible pan stands at 0
(assumption log 4), and it completes. -/
def execTimerDone (n : Slot) (s : State) : Host.Outcome State Fault Refusal :=
  if s.rstLow then .next s
  else .next (timerCompletes n (runTimer n ((s.pan n).timer.getD 0) s)).state

/-- BOOST_ENDED (R97). -/
def execBoostEnded (n : Slot) (s : State) : Host.Outcome State Fault Refusal :=
  expire (State.untilBoostEnd n) (endBoost n) s

/-! ## The permit (R163) -/

/-- The generators whose orders have a nonzero charge, in generator-number order (R163). -/
def State.charged (s : State) : List Gen := allGens.filter fun g => decide (s.charge g ≠ 0)

/-- The permit expires (R163). -/
def permitExpires : Op := fun s =>
  let t := ({ s with permit := .expired } : State).post .permitExpired
  (forEach (fun n => editPan n (fun p => { p with held := true }))
    (allSlots.filter fun n => decide ((t.pan n).state ≠ .free)) t).andThen fun t =>
      (reportAll t.charged t).andThen retestDesks

/-- PERMIT_EXPIRED (R163). -/
def execPermitExpired (s : State) : Host.Outcome State Fault Refusal :=
  expire State.untilPermitEnd permitExpires s

/-! ## Sheds (R117) -/

/-- A generator put in its place of the order of R117: the largest charge first, the higher number first among
equals. -/
def State.placeStop (s : State) (g : Gen) : List Gen → List Gen
  | [] => [g]
  | h :: rest => if s.charge h ≤ s.charge g then g :: h :: rest else h :: s.placeStop g rest

/-- The order in which a deadline stops the generators of a phase (R117): equal charges keep the higher number in
front, since the generators are placed in generator-number order. -/
def State.stopOrder (s : State) (p : Phase) : List Gen := (s.chargedOn p).foldl (fun gs g => s.placeStop g gs) []

/-- Stop generators until the phase's shed has ended (R117). -/
def stopWhilePending (p : Phase) (g : Gen) : Op := fun s =>
  if (s.account p).shed.isSome then stopGen g .shed s else .ok s

/-- The deadline of a pending shed runs out (R117). -/
def deadlineExpires (p : Phase) : Op := fun s =>
  (forEach (stopWhilePending p) (s.stopOrder p) s).andThen fun t => (replanPass t).andThen (settle s)

/-- SHED_DEADLINE_EXPIRY (R117). -/
def execShedDeadlineExpiry (p : Phase) (s : State) : Host.Outcome State Fault Refusal :=
  expire (State.untilDeadline p) (deadlineExpires p) s

/-! ## The timers of a desk (R150 to R154) -/

/-- The lease runs out (R151). -/
def leaseExpires (g : Gen) : Op := fun s =>
  let t := if (s.issuedOrder g).isSome then s.requestYield g else s
  .ok (t.setDesk g { t.desk g with lease := none })

/-- LEASE_EXPIRY (R151). -/
def execLeaseExpiry (g : Gen) (s : State) : Host.Outcome State Fault Refusal :=
  expire (fun s => (s.desk g).lease) (leaseExpires g) s

/-- The yield timer expires (R152). -/
def yieldExpires (g : Gen) : Op := fun s =>
  if (s.desk g).state = .yielding then
    (stopGen g .yieldTimeout s).andThen fun t => (replanPass t).andThen (settle s)
  else .ok (s.setDesk g { s.desk g with yield := none })

/-- YIELD_TIMEOUT (R152). -/
def execYieldTimeout (g : Gen) (s : State) : Host.Outcome State Fault Refusal :=
  expire (fun s => (s.desk g).yield) (yieldExpires g) s

/-- The BUILT order of a COMPLETE desk is discarded (R150). -/
def collectionExpires (g : Gen) : Op := fun s =>
  (checkOrder g s).andThen fun s => (releaseCoils g false s).andThen fun s =>
    let s := if (s.desk g).order.isSome then s.dropOrderPosting g else s
    .ok (s.setDesk g { s.desk g with desk := .empty, repeats := 0, collection := none })

/-- COLLECTION_EXPIRY (R150). -/
def execCollectionExpiry (g : Gen) (s : State) : Host.Outcome State Fault Refusal :=
  expire (fun s => (s.desk g).collection) (collectionExpires g) s

/-- The state a hold ends in (R154). -/
def HoldEnd.state : HoldEnd → GenState
  | .joined => .joined
  | .absent => .absent

/-- The hold ends (R154). -/
def holdEnds (g : Gen) : Op := fun s =>
  let d := s.desk g
  if d.state = .stopped then
    let t := s.setDesk g { d with state := d.holdEnd.state, hold := none }
    if d.holdEnd = .joined then (replanPass t).andThen (settle s) else .ok t
  else .ok (s.setDesk g { d with hold := none })

/-- HOLD_END (R154). -/
def execHoldEnd (g : Gen) (s : State) : Host.Outcome State Fault Refusal :=
  expire (fun s => (s.desk g).hold) (holdEnds g) s

/-- WAIT_CONDITION_CLEARED (R149): a WAITING desk whose wait test passes builds. -/
def execWaitConditionCleared (g : Gen) (s : State) : Host.Outcome State Fault Refusal :=
  if s.rstLow then .next s else .next (retestDesk g s).state

end Sys2Proof.Machine
end

