-- ==== Sys2Proof/Machine/Configure.lean ====
section
/-! DEFINITION. CONFIGURE (R90, R110, R187, R188). -/

namespace Sys2Proof.Machine

/-- The level table's entry, BOOST last. -/
def LevelTable.entry (t : LevelTable) (n : Fin 13) : Nat := t.watts[n]

/-- The stored value of a parameter (R188). -/
def State.paramValue (s : State) : Param → Nat
  | .level n => s.levels.entry n
  | .phase g => (phaseCode (s.genPhase g)).toNat
  | .lostTime => s.params.lostTime
  | .orderLease => s.params.orderLease
  | .yieldTimeout => s.params.yieldTimeout
  | .collectionTime => s.params.collectionTime
  | .repeatLimit => s.params.repeatLimit
  | .confirmCount => s.params.confirmCount
  | .boostDuration => s.params.boostDuration
  | .shedDeadline => s.params.shedDeadline

/-- A level-table entry may be written over an entry (R90): 10 W to 3,600 W in steps of 10 W, at least the
entry below and at most the entry above. -/
def LevelTable.admits (t : LevelTable) (n : Fin 13) (v : Nat) : Bool :=
  decide (10 ≤ v ∧ v ≤ 3600 ∧ v % 10 = 0) &&
    (if h : 0 < n.val then decide (t.entry ⟨n.val - 1, by omega⟩ ≤ v) else true) &&
    (if h : n.val < 12 then decide (v ≤ t.entry ⟨n.val + 1, by omega⟩) else true)

/-- The value lies in the parameter's range (R188). -/
def State.paramFits (s : State) (v : Nat) : Param → Bool
  | .level n => s.levels.admits n v
  | .phase _ => decide (1 ≤ v ∧ v ≤ 2)
  | .lostTime => decide (1 ≤ v ∧ v ≤ 30)
  | .orderLease => decide (250 ≤ v ∧ v ≤ 5000)
  | .yieldTimeout => decide (10 ≤ v ∧ v ≤ 200)
  | .collectionTime => decide (20 ≤ v ∧ v ≤ 500)
  | .repeatLimit => decide (1 ≤ v ∧ v ≤ 255)
  | .confirmCount => decide (1 ≤ v ∧ v ≤ 8)
  | .boostDuration => decide (60 ≤ v ∧ v ≤ 600)
  | .shedDeadline => decide (100 ≤ v ∧ v ≤ 10000)

/-- Store a parameter (R187). The level table is written with a fresh code (R90). -/
def State.setParam (s : State) (v : Nat) : Param → State
  | .level n => { s with levels := ⟨s.levels.watts.set n v, true⟩ }
  | .phase g => s.setGenPhase g (if v = 1 then .l1 else .l2)
  | .lostTime => { s with params := { s.params with lostTime := v } }
  | .orderLease => { s with params := { s.params with orderLease := v } }
  | .yieldTimeout => { s with params := { s.params with yieldTimeout := v } }
  | .collectionTime => { s with params := { s.params with collectionTime := v } }
  | .repeatLimit => { s with params := { s.params with repeatLimit := v } }
  | .confirmCount => { s with params := { s.params with confirmCount := v } }
  | .boostDuration => { s with params := { s.params with boostDuration := v } }
  | .shedDeadline => { s with params := { s.params with shedDeadline := v } }

/-- The check of what a read or write of a parameter reads: the level table's code for its entries (R187). -/
def checkParam : Param → Op
  | .level _ => checkLevels
  | _ => .ok

/-- The fields of the DONE of CONFIGURE: the parameter code and the stored value (R187). -/
def State.paramFields (s : State) (code : Byte) (p : Param) : List Byte := code :: wordOf (s.paramValue p)

/-- A CONFIGURE that reads (R187). -/
def readParam (code : Byte) (p : Param) (s : State) : State × Answer :=
  match checkParam p s with
  | .safe t => (t, .refused .safe)
  | .ok t => (t, .done (t.paramFields code p))

/-- A CONFIGURE that writes (R187). The code of the level table is verified before the tests of the range and of the
charges (DESIGN CHOICE, assumption log 47). -/
def writeParam (code : Byte) (p : Param) (v : Nat) (s : State) : State × Answer :=
  match checkParam p s with
  | .safe t => (t, .refused .safe)
  | .ok t =>
    if t.paramFits v p = false then (t, .refused .outOfRange)
    else if t.anyCharge then (t, .refused .busy)
    else (t.setParam v p, .done ((t.setParam v p).paramFields code p))

/-- CONFIGURE (R187). -/
def serveConfigure (body : List Byte) (s : State) : State × Answer :=
  if s.safe then (s, .refused .safe)
  else match body with
    | [code] =>
      match paramFrom code with
      | some p => readParam code p s
      | none => (s, .refused .outOfRange)
    | [code, lo, hi] =>
      match paramFrom code with
      | some p => writeParam code p (wordFrom lo hi) s
      | none => (s, .refused .outOfRange)
    | _ => (s, .refused .outOfRange)

end Sys2Proof.Machine
end

