-- ==== Sys2Proof/Machine/Panel.lean ====
section
/-! DEFINITION. The panel's requests on pans and windows: SET LEVEL, SET TIMER, HOLD, RESUME, STOP ALL and SET WINDOW (R88 to R94, R103). -/

namespace Sys2Proof.Machine

/-! ## Requests on one pan (R88 to R91) -/

/-- The fields of the DONE of SET LEVEL and SET TIMER (R88). -/
def State.slotFields (s : State) (n : Slot) : List Byte :=
  let p := s.pan n
  [byteOf n.val, byteOf p.tag.val, byteOf p.level.val, byteOf p.source.code] ++ timerCode p.timer ++ boostCode p.boost

/-- R88's tests of the slot and tag, then the work, answered DONE whether or not it is abandoned. -/
def serveSlot (n : Slot) (t : Tag) (work : Op) (s : State) : State × Answer :=
  if (s.pan n).state = .free then (s, .refused .noPan)
  else if (s.pan n).tag ≠ t then (s, .refused .stale)
  else
    let u := (work s).state
    (u, .done (u.slotFields n))

/-- A pan record that takes a level from the panel (R89). -/
def Pan.withLevel (level : Fin 14) (boostMs : Nat) (p : Pan) : Pan :=
  { p with level := level, source := .panel, boost := if level = 13 then some boostMs else none }

/-- SET LEVEL, taken (R89). -/
def setLevel (n : Slot) (level : Fin 14) : Op := fun s =>
  let old := (s.pan n).level
  (editPan n (Pan.withLevel level (s.params.boostDuration * 1000)) s).andThen fun t =>
    (if old < level then .ok (t.raise n)
     else if level < old then reportAll (t.legHolders (t.panId n)) t
     else .ok t : Flow).andThen (settle s)

/-- SET LEVEL (R88, R89). -/
def serveSetLevel (body : List Byte) (s : State) : State × Answer :=
  if s.safe then (s, .refused .safe)
  else match body with
    | [a, b, c] =>
      match below 8 a, below 16 b, below 14 c with
      | some n, some t, some level => serveSlot n t (setLevel n level) s
      | _, _, _ => (s, .refused .outOfRange)
    | _ => (s, .refused .outOfRange)

/-- A timer value: NONE is 0xFFFF (R91, R189). -/
def timerFrom (lo hi : Byte) : Option Nat := if wordFrom lo hi = 0xFFFF then none else some (wordFrom lo hi)

/-- SET TIMER, taken: all three settings are written, and a timer of 0 on a heating-eligible pan completes
at once (R91), which writes the record once more (DESIGN CHOICE, assumption log 48). -/
def setTimer (n : Slot) (value : Option Nat) (autoHold holdOnLift : Bool) : Op := fun s =>
  (rewritePan n (fun p => { p with timer := value, autoHold := autoHold, holdOnLift := holdOnLift }) s).andThen fun t =>
    (completeIfDue n (t.setPartSecond n 0)).andThen (settle s)

/-- SET TIMER (R88, R91). -/
def serveSetTimer (body : List Byte) (s : State) : State × Answer :=
  if s.safe then (s, .refused .safe)
  else match body with
    | [a, b, lo, hi, settings] =>
      match below 8 a, below 16 b with
      | some n, some t =>
        serveSlot n t (setTimer n (timerFrom lo hi) (settings.getLsbD 0) (settings.getLsbD 1)) s
      | _, _ => (s, .refused .outOfRange)
    | _ => (s, .refused .outOfRange)

/-! ## Requests on several pans (R92 to R94) -/

/-- The slots that are HELD, as a mask. -/
def State.heldMask (s : State) : Byte :=
  maskOf ((allSlots.filter fun n => (s.pan n).held).map (·.val))

/-- The PRESENT and LOST slots of a list. -/
def State.occupied (s : State) (slots : List Slot) : List Slot :=
  slots.filter fun n => decide ((s.pan n).state ≠ .free)

/-- Set HELD on one slot. -/
def holdPan (n : Slot) : Op := editPan n (fun p => { p with held := true })

/-- Set HELD on slots in turn, gathering the orders with a leg for a pan that was heating-eligible, then make
one report for each (R92, R101). -/
def holdFrom : List Slot → List Gen → Op
  | [], affected, s => reportAll affected s
  | n :: rest, affected, s =>
    let more := if s.heating n then s.legHolders (s.panId n) else []
    (holdPan n s).andThen (holdFrom rest (affected ++ more))

/-- HOLD, taken (R92). -/
def holdSlots (slots : List Slot) : Op := fun s =>
  (holdFrom (s.occupied slots) [] s).andThen (settle s)

/-- HOLD (R92). -/
def serveHold (body : List Byte) (s : State) : State × Answer :=
  if s.safe then (s, .refused .safe)
  else match body with
    | [m] =>
      let u := (holdSlots (maskSlots m) s).state
      (u, .done [u.heldMask])
    | _ => (s, .refused .outOfRange)

/-- The Priority List with these slots at its front (R93). -/
def State.raiseAll (s : State) (slots : List Slot) : State :=
  { s with priority := slots ++ s.priority.filter fun n => decide (n ∉ slots) }

/-- RESUME, taken (R93), HELD cleared in slot order (DESIGN CHOICE, assumption log 42). -/
def resumeSlots (slots : List Slot) : Op := fun s =>
  let named := s.occupied slots
  (forEach (fun n => editPan n (fun p => { p with held := false })) named s).andThen fun t =>
    settle s (t.raiseAll named)

/-- RESUME (R93). -/
def serveResume (body : List Byte) (s : State) : State × Answer :=
  if s.safe then (s, .refused .safe)
  else match body with
    | [m] =>
      let u := (resumeSlots (maskSlots m) s).state
      (u, .done [u.heldMask])
    | _ => (s, .refused .outOfRange)

/-- The generators that are JOINED, ORDERED or YIELDING, in generator-number order. -/
def State.inService (s : State) : List Gen :=
  allGens.filter fun g =>
    decide ((s.desk g).state = .joined ∨ (s.desk g).state = .ordered ∨ (s.desk g).state = .yielding)

/-- STOP ALL, taken (R94): the re-plan pass follows the stops, if any are made. -/
def stopAll : Op := fun s =>
  let stops := s.inService
  (forEach holdPan (s.occupied allSlots) s).andThen fun t =>
    (forEach (fun g => stopGen g .stopAll) stops t).andThen fun t =>
      (doIf (!stops.isEmpty) replanPass t).andThen (settle s)

/-- STOP ALL (R94). -/
def serveStopAll (s : State) : State × Answer :=
  if s.safe then (s, .refused .safe) else ((stopAll s).state, .done [])

/-! ## SET WINDOW (R103) -/

/-- A window record from the fields of a SET WINDOW; none when one is out of range (R103). -/
def windowFrom (mode cb cl rb rl preset : Byte) : Option Window :=
  match modeFrom mode, below 8 cb, below 8 cl, below 6 rb, below 6 rl, below 13 preset with
  | some m, some a, some b, some c, some d, some p => some ⟨m, a.val, b.val, c.val, d.val, p⟩
  | _, _, _, _, _, _ => none

/-- The fields of the DONE of SET WINDOW (R103, R189): the window number and the six fields of the window (DEDUCED,
assumption log 37). -/
def State.windowFields (s : State) (n : WindowNo) : List Byte :=
  let w := s.window n
  [byteOf n.val, w.mode.code, byteOf w.colBase, byteOf w.colLimit, byteOf w.rowBase, byteOf w.rowLimit,
   byteOf w.preset.val]

/-- SET WINDOW, taken: a coil of a leg that becomes excluded is a downward change on its order (R103). -/
def placeWindow (n : WindowNo) (w : Window) : Op := fun s =>
  let t := s.setWindow n w
  reportAll ((allCoils.filter fun c => !s.excluded c && t.excluded c && (s.coil c).state.inLeg).map s.driverGen) t

/-- SET WINDOW (R103). -/
def serveSetWindow (body : List Byte) (s : State) : State × Answer :=
  if s.safe then (s, .refused .safe)
  else match body with
    | [a, mode, cb, cl, rb, rl, preset] =>
      match below 4 a, windowFrom mode cb cl rb rl preset with
      | some n, some w =>
        let u := (placeWindow n w s).state
        (u, .done (u.windowFields n))
      | _, _ => (s, .refused .outOfRange)
    | _ => (s, .refused .outOfRange)

end Sys2Proof.Machine
end

