-- ==== Sys2Proof/Machine/Reporting.lean ====
section
/-! DEFINITION. READ EVENTS, READ PANS, READ MAP, STATUS and READ LOAD (R118, R195, R197 to R199). -/

namespace Sys2Proof.Machine

/-- READ EVENTS (R195): served in every state of the part. -/
def serveReadEvents (body : List Byte) (s : State) : State × Answer :=
  match body with
  | [count] =>
    if 1 ≤ count.toNat ∧ count.toNat ≤ 8 then
      let taken := s.events.take count.toNat
      ({ s with events := s.events.drop count.toNat, eventsLost := false },
       .done ([byteOf (bitOf s.eventsLost 0), byteOf taken.length] ++ taken.flatMap Event.bytes))
    else (s, .refused .outOfRange)
  | _ => (s, .refused .outOfRange)

/-- What a snapshot is answered: the fields, or REFUSED(SAFE) after a failed check (R197, R198). -/
def Flow.snapshot (f : Flow) (fields : State → List Byte) : State × Answer :=
  match f with
  | .ok s => (s, .done (fields s))
  | .safe s => (s, .refused .safe)

/-- The fields of READ PANS (R192, R197). -/
def State.panFields (s : State) : List Byte :=
  let slots := allSlots.filter fun n => decide ((s.pan n).state ≠ .free)
  byteOf slots.length :: slots.flatMap fun n => (s.pan n).bytes n (s.deliveredPower n)

/-- READ PANS (R197). All 8 records are read and verified, those of FREE slots too (DESIGN CHOICE, assumption log 44). -/
def serveReadPans (s : State) : State × Answer :=
  if s.safe then (s, .refused .safe) else (forEach checkPan allSlots s).snapshot State.panFields

/-- The fields of READ MAP (R192, R198). -/
def State.mapFields (s : State) : List Byte :=
  allCoils.flatMap fun c => (s.coil c).bytes (s.excluded c) (s.coil c).state.owner

/-- READ MAP (R198). -/
def serveReadMap (s : State) : State × Answer :=
  if s.safe then (s, .refused .safe) else (forEach checkCoil allCoils s).snapshot State.mapFields

/-- STATUS (R199): served in every state of the part, and changes nothing. -/
def serveStatus (s : State) : State × Answer :=
  (s, .done ([byteOf (bitOf s.safe 0), s.permit.code] ++ wordOf s.permit.remaining ++
    (allGens.map fun g => (s.desk g).state.code) ++
    ([Phase.l1, .l2].flatMap fun p =>
      wordOf (s.account p).target ++ wordOf (s.account p).committed ++ wordOf (s.account p).load)))

/-- READ LOAD (R118). -/
def serveReadLoad (s : State) : State × Answer :=
  if s.safe then (s, .refused .safe)
  else (s, .done (
    ([Phase.l1, .l2].flatMap fun p =>
      let a := s.account p
      wordOf a.target ++ wordOf a.committed ++ wordOf a.load ++ [byteOf (bitOf a.shed.isSome 0)] ++
        wordOf ((a.shed.map (·.deadline)).getD 0) ++ wordOf ((a.shed.map (·.remaining)).getD 0)) ++
    (allGens.flatMap fun g => phaseCode (s.genPhase g) :: wordOf (s.charge g))))

end Sys2Proof.Machine
end

