-- ==== Sys2Proof/Machine/Safeguards.lean ====
section
/-! DEFINITION. PERMIT, CHECK TEST and RESTART (R162, R171, R174, R175). -/

namespace Sys2Proof.Machine

/-! ## PERMIT (R162) -/

/-- PERMIT, taken (R162). -/
def grantPermit (seconds : Nat) : Op := fun s =>
  settle s { s with permit := .running (seconds * 1000) }

/-- PERMIT (R162). -/
def servePermit (body : List Byte) (s : State) : State × Answer :=
  if s.safe then (s, .refused .safe)
  else match body with
    | [period] =>
      if 1 ≤ period.toNat ∧ period.toNat ≤ 60 then
        let u := (grantPermit period.toNat s).state
        (u, .done (u.permit.code :: wordOf u.permit.remaining))
      else (s, .refused .outOfRange)
    | _ => (s, .refused .outOfRange)

/-! ## CHECK TEST (R171) -/

/-- The link marks cleared. -/
def State.clearLinkMarks (s : State) : State :=
  { s with ports := s.ports.map fun p => { p with forcedBad := false } }

/-- Arm the mark of a target, or clear all nine for NONE (R171). -/
def State.arm (s : State) : TestTarget → State
  | .none => (s.setMarks TableMarks.clear).clearLinkMarks
  | .coilMap => s.setMarks { s.marks with coilMap := true }
  | .panTable => s.setMarks { s.marks with panTable := true }
  | .orders => s.setMarks { s.marks with orders := true }
  | .link l => s.setPort l { s.port l with forcedBad := true }

/-- The CHECK TEST mark set (R189). -/
def State.armedSet (s : State) : List Byte :=
  wordOf (bitOf s.marks.coilMap 0 + bitOf s.marks.panTable 1 + bitOf s.marks.orders 2 +
    bitOf (s.port .pl).forcedBad 3 + bitOf (s.port (.gl 0)).forcedBad 4 + bitOf (s.port (.gl 1)).forcedBad 5 +
    bitOf (s.port (.gl 2)).forcedBad 6 + bitOf (s.port (.gl 3)).forcedBad 7 + bitOf (s.port .sl).forcedBad 8)

/-- CHECK TEST (R171). -/
def serveCheckTest (body : List Byte) (s : State) : State × Answer :=
  if s.safe then (s, .refused .safe)
  else match body with
    | [b] =>
      match targetFrom b with
      | some target =>
        if s.anyCharge then (s, .refused .busy)
        else (s.arm target, .done (s.arm target).armedSet)
      | none => (s, .refused .outOfRange)
    | _ => (s, .refused .outOfRange)

/-! ## RESTART (R174, R175) -/

/-- What lets RESTART's releases verify nothing and test no shed (R165, R174): every code of a coil, a pan and
an order valid, no table mark armed, no shed pending. All of it is written afresh before RESTART ends. -/
def State.unchecked (s : State) : State :=
  { s with
    coils := s.coils.map fun r => { r with codeOk := true }
    pans := s.pans.map fun p => { p with codeOk := true }
    desks := s.desks.map fun d => { d with order := d.order.map fun o => { o with codeOk := true } }
    accounts := s.accounts.map fun a => { a with shed := none }
    marks := TableMarks.clear }

/-- RESTART's work on one generator (R174). -/
def restartGen (s : State) (g : Gen) : State :=
  match (s.desk g).state with
  | .absent => s
  | .disabled => s
  | .stopped =>
    (s.setDesk g { s.desk g with hold := some Config.stopHold, holdEnd := .absent }).postStopped g .restart
  | _ => (stopGen g .restart s).state

/-- RESTART: the generators, then the rest of the state, the Event Queue last (R174, R175). -/
def restart (s : State) : State :=
  let s := (allGens.foldl restartGen s.unchecked).cleared
  { s with
    safe := false
    marks := TableMarks.clear
    ports := s.ports.map fun p => { p with overrun := false, forcedBad := false }
    events := []
    eventsLost := false }

/-- RESTART is served in every state of the part (R174). -/
def serveRestart (s : State) : State × Answer := (restart s, .done [])

end Sys2Proof.Machine
end

