-- ==== Sys2Proof/Machine/Routing.lean ====
section
/-! DEFINITION. The taking of a message: its routing by kind and link, its arrival byte by byte or as a whole, and its ending as bad (R178 to R184). -/

namespace Sys2Proof.Machine

/-! ## Routing (R184) -/

/-- The request kind is allowed on the link (R184, R190). -/
def kindAllowed (k : ReqKind) (l : Link) : Bool :=
  match k, l with
  | .status, _ => true
  | .hello, .gl _ => true
  | .sweep, .gl _ => true
  | .fetch, .gl _ => true
  | .setCap, .sl => true
  | .shed, .sl => true
  | .readLoad, .sl => true
  | .hello, _ => false
  | .sweep, _ => false
  | .fetch, _ => false
  | .setCap, _ => false
  | .shed, _ => false
  | .readLoad, _ => false
  | _, .pl => true
  | _, _ => false

/-- The request kind carries no body (R184). -/
def bodyless : ReqKind → Bool
  | .status => true
  | .hello => true
  | .stopAll => true
  | .restart => true
  | .readPans => true
  | .readMap => true
  | .readLoad => true
  | _ => false

/-- The generator of a link. -/
def linkGen : Link → Gen
  | .gl g => g
  | _ => 0

/-- The kind's own rule (R184 step 4), for a request allowed on its link. -/
def serve (k : ReqKind) (l : Link) (body : List Byte) (s : State) : State × Answer :=
  match k with
  | .status => serveStatus s
  | .setLevel => serveSetLevel body s
  | .setTimer => serveSetTimer body s
  | .hold => serveHold body s
  | .resume => serveResume body s
  | .stopAll => serveStopAll s
  | .setWindow => serveSetWindow body s
  | .permit => servePermit body s
  | .enableGenerators => serveEnable body s
  | .checkTest => serveCheckTest body s
  | .restart => serveRestart s
  | .readEvents => serveReadEvents body s
  | .readPans => serveReadPans s
  | .readMap => serveReadMap s
  | .configure => serveConfigure body s
  | .hello => serveHello (linkGen l) s
  | .sweep => serveSweep (linkGen l) body s
  | .fetch => serveFetch (linkGen l) body s
  | .setCap => serveSetCap body s
  | .shed => serveShed body s
  | .readLoad => serveReadLoad s

/-- A good message on a link, routed by the tests of R184 in their order. -/
def route (l : Link) (m : Message) (s : State) : State × Answer :=
  match ReqKind.ofCode m.kind with
  | none => (s, .refused .unknownKind)
  | some k =>
    if kindAllowed k l = false then (s, .refused .wrongLink)
    else if bodyless k = true ∧ m.body ≠ [] then (s, .refused .outOfRange)
    else serve k l m.body s

/-- A good message is taken and its reply begun (R180, R184, R185). -/
def State.takeMessage (s : State) (l : Link) (m : Message) : State :=
  let r := route l m s
  r.1.reply l (some m) Causes.none r.2

/-! ## Bytes (R179, R180, R182) -/

/-- The causes a byte adds (R180). -/
def byteCauses (b : RxByte) : Causes := { Causes.none with parity := b.parityErr, framing := b.framingErr }

/-- A byte that IDLE takes as SYNC (R180). -/
def isSync (b : RxByte) : Bool := decide (b.data = 0xC3) && !b.parityErr && !b.framingErr

/-- The port stays RECEIVING with this partial message. -/
def State.keepReceiving (s : State) (l : Link) (bytes : List Byte) (causes : Causes) : State :=
  s.setPort l { s.port l with rx := .receiving bytes causes 0 }

/-- The CHECK byte arrives: the message ends, good or bad (R180). -/
def State.endMessage (s : State) (l : Link) (bytes : List Byte) (causes : Causes) (check : Byte) : State :=
  let causes := { causes with check := causes.check || decide (crc bytes ≠ check) }
  if causes.any then s.endBad l causes
  else
    match bytes with
    | _ :: kind :: body => s.takeMessage l ⟨kind, body⟩
    | _ => s

/-- A byte appended to a partial message (R180). -/
def State.appendByte (s : State) (l : Link) (bytes : List Byte) (causes : Causes) (b : Byte) : State :=
  match bytes with
  | [] =>
    if Config.maxLen < b.toNat then s.endBad l { causes with length := true }
    else s.keepReceiving l [b] causes
  | len :: rest =>
    if rest.length = len.toNat + 1 then s.endMessage l bytes causes b
    else s.keepReceiving l (bytes ++ [b]) causes

/-- A byte arrives on a link (R180, R182); while RST is low it is not received (R176). -/
def State.receiveByte (s : State) (l : Link) (b : RxByte) : State :=
  if s.rstLow then s
  else match (s.port l).rx with
    | .idle => if isSync b then s.keepReceiving l [] Causes.none else s
    | .receiving bytes causes _ => s.appendByte l bytes (causes.union (byteCauses b)) b.data
    | .inHand _ _ _ => s.setPort l { s.port l with overrun := true }

/-- Error-free bytes arrive one after another. -/
def State.receiveAll (l : Link) : List Byte → State → State
  | [], s => s
  | b :: rest, s => State.receiveAll l rest (s.receiveByte l ⟨b, false, false⟩)

/-! ## Whole messages (assumption log 1) -/

/-- The port is where the rest of this message can end it: IDLE, or RECEIVING an error-free start of it. -/
def Receiver.awaits (m : Message) : Receiver → Bool
  | .idle => true
  | .receiving bytes causes _ => !causes.any && bytes.isPrefixOf m.bytes
  | .inHand _ _ _ => false

/-- A whole message of this kind and body arrives on a link: it is taken where the port can end it; otherwise
its bytes meet the port one by one (assumption log 1, 25). -/
def State.messageArrives (s : State) (l : Link) (kind : Byte) (body : List Byte) : State :=
  let m : Message := ⟨kind, body⟩
  if s.rstLow then s
  else if bodyFits body = true ∧ (s.port l).rx.awaits m = true then s.takeMessage l m
  else State.receiveAll l m.frame s

/-- A message ends as bad by its bytes (R181); a port IN HAND meets the bytes by R182. -/
def State.badMessage (s : State) (l : Link) (causes : Causes) : State :=
  if s.rstLow = true ∨ causes.any = false then s
  else match (s.port l).rx with
    | .idle => s.endBad l causes
    | .receiving _ pending _ => s.endBad l (pending.union causes)
    | .inHand _ _ _ => s.setPort l { s.port l with overrun := true }

end Sys2Proof.Machine
end

