-- ==== Sys2Proof/Machine/LinkEvents.lean ====
section
/-! DEFINITION. The meanings of the link events: a byte received, a bad frame, a gap and the end of a reply (R180 to R182). -/

namespace Sys2Proof.Machine

/-- LINK_BYTE_RECEIVED (R179, R180, R182). -/
def execLinkByteReceived (l : Link) (w : LineByte) (s : State) : Host.Outcome State Fault Refusal :=
  .next (s.receiveByte l (receivedByte w))

/-- BAD_FRAME (R181; assumption log 21). -/
def execBadFrame (l : Link) (causes : Causes) (s : State) : Host.Outcome State Fault Refusal :=
  .next (s.badMessage l causes)

/-- The gap timer of a RECEIVING port has passed 5 ms: the message ends as bad (R181). -/
def State.gapEnds (s : State) (l : Link) : State :=
  match (s.port l).rx with
  | .receiving _ causes _ => s.endBad l { causes with gap := true }
  | _ => s

/-- GAP_TIMEOUT (R181): the time base runs until the gap timer passes 5 ms (assumption log 4, 12). -/
def execGapTimeout (l : Link) (s : State) : Host.Outcome State Fault Refusal :=
  if s.rstLow then .next s
  else match s.untilGap l with
    | none => .next s
    | some left => .next ((elapse left s).gapEnds l)

/-- REPLY_SENT (R182): the port becomes IDLE; a port that sends no reply is left as it is. -/
def execReplySent (l : Link) (s : State) : Host.Outcome State Fault Refusal :=
  match (s.port l).rx with
  | .inHand _ _ _ => .next (s.setPort l { s.port l with rx := .idle })
  | _ => .next s

end Sys2Proof.Machine
end

