-- ==== Sys2Proof/Machine/Requests.lean ====
section
/-! DEFINITION. The meanings of the request commands: each is the arrival of a message of its kind on a link (R180, R184). -/

namespace Sys2Proof.Machine

/-- STATUS (R199). -/
def execStatus (l : Link) (body : List Byte) (s : State) : Host.Outcome State Fault Refusal :=
  .next (s.messageArrives l ReqKind.status.code body)

/-- SET LEVEL (R89). -/
def execSetLevel (l : Link) (body : List Byte) (s : State) : Host.Outcome State Fault Refusal :=
  .next (s.messageArrives l ReqKind.setLevel.code body)

/-- SET TIMER (R91). -/
def execSetTimer (l : Link) (body : List Byte) (s : State) : Host.Outcome State Fault Refusal :=
  .next (s.messageArrives l ReqKind.setTimer.code body)

/-- HOLD (R92). -/
def execHold (l : Link) (body : List Byte) (s : State) : Host.Outcome State Fault Refusal :=
  .next (s.messageArrives l ReqKind.hold.code body)

/-- RESUME (R93). -/
def execResume (l : Link) (body : List Byte) (s : State) : Host.Outcome State Fault Refusal :=
  .next (s.messageArrives l ReqKind.resume.code body)

/-- STOP ALL (R94). -/
def execStopAll (l : Link) (body : List Byte) (s : State) : Host.Outcome State Fault Refusal :=
  .next (s.messageArrives l ReqKind.stopAll.code body)

/-- SET WINDOW (R103). -/
def execSetWindow (l : Link) (body : List Byte) (s : State) : Host.Outcome State Fault Refusal :=
  .next (s.messageArrives l ReqKind.setWindow.code body)

/-- PERMIT (R162). -/
def execPermit (l : Link) (body : List Byte) (s : State) : Host.Outcome State Fault Refusal :=
  .next (s.messageArrives l ReqKind.permit.code body)

/-- ENABLE GENERATORS (R156, R157). -/
def execEnableGenerators (l : Link) (body : List Byte) (s : State) : Host.Outcome State Fault Refusal :=
  .next (s.messageArrives l ReqKind.enableGenerators.code body)

/-- CHECK TEST (R171). -/
def execCheckTest (l : Link) (body : List Byte) (s : State) : Host.Outcome State Fault Refusal :=
  .next (s.messageArrives l ReqKind.checkTest.code body)

/-- RESTART (R174, R175). -/
def execRestart (l : Link) (body : List Byte) (s : State) : Host.Outcome State Fault Refusal :=
  .next (s.messageArrives l ReqKind.restart.code body)

/-- READ EVENTS (R195). -/
def execReadEvents (l : Link) (body : List Byte) (s : State) : Host.Outcome State Fault Refusal :=
  .next (s.messageArrives l ReqKind.readEvents.code body)

/-- READ PANS (R197). -/
def execReadPans (l : Link) (body : List Byte) (s : State) : Host.Outcome State Fault Refusal :=
  .next (s.messageArrives l ReqKind.readPans.code body)

/-- READ MAP (R198). -/
def execReadMap (l : Link) (body : List Byte) (s : State) : Host.Outcome State Fault Refusal :=
  .next (s.messageArrives l ReqKind.readMap.code body)

/-- CONFIGURE (R187: the body is a parameter code alone). -/
def execConfigureRead (l : Link) (body : List Byte) (s : State) : Host.Outcome State Fault Refusal :=
  .next (s.messageArrives l ReqKind.configure.code body)

/-- CONFIGURE (R187: the body is a parameter code and a value). -/
def execConfigureWrite (l : Link) (body : List Byte) (s : State) : Host.Outcome State Fault Refusal :=
  .next (s.messageArrives l ReqKind.configure.code body)

/-- HELLO (R142). -/
def execHello (l : Link) (body : List Byte) (s : State) : Host.Outcome State Fault Refusal :=
  .next (s.messageArrives l ReqKind.hello.code body)

/-- SWEEP (R26). -/
def execSweep (l : Link) (body : List Byte) (s : State) : Host.Outcome State Fault Refusal :=
  .next (s.messageArrives l ReqKind.sweep.code body)

/-- FETCH (R143). -/
def execFetch (l : Link) (body : List Byte) (s : State) : Host.Outcome State Fault Refusal :=
  .next (s.messageArrives l ReqKind.fetch.code body)

/-- SET CAP (R111). -/
def execSetCap (l : Link) (body : List Byte) (s : State) : Host.Outcome State Fault Refusal :=
  .next (s.messageArrives l ReqKind.setCap.code body)

/-- SHED (R112). -/
def execShed (l : Link) (body : List Byte) (s : State) : Host.Outcome State Fault Refusal :=
  .next (s.messageArrives l ReqKind.shed.code body)

/-- READ LOAD (R118). -/
def execReadLoad (l : Link) (body : List Byte) (s : State) : Host.Outcome State Fault Refusal :=
  .next (s.messageArrives l ReqKind.readLoad.code body)

/-- A good message of an unknown kind (R184). -/
def execUnknownKind (l : Link) (kind : Byte) (body : List Byte) (s : State) : Host.Outcome State Fault Refusal :=
  .next (s.messageArrives l kind body)

end Sys2Proof.Machine
end

