-- ==== Sys2Proof/Machine/Resets.lean ====
section
/-! DEFINITION. The meanings of power-on reset and of RST taken low (R176). -/

namespace Sys2Proof.Machine

/-- POWER_ON_RESET (R176): RST is held low and raised, and the straps are sampled. -/
def execPowerOnReset (straps : BitVec 2) (s : State) : Host.Outcome State Fault Refusal :=
  .next (State.powerOn straps s.pending s.freeCount)

/-- RST_TAKEN_LOW (R176): whatever was in flight is abandoned; the rate is sampled only when RST rises
(assumption log 13). -/
def execRstTakenLow (s : State) : Host.Outcome State Fault Refusal :=
  .next { State.powerOn s.rate s.pending s.freeCount with rstLow := true }

end Sys2Proof.Machine
end

