-- ==== Sys2Proof/Machine/Dispatch.lean ====
section
/-! DEFINITION. The dispatcher: one arm for each command. -/

namespace Sys2Proof.Machine

def exec (i : Instr) (s : State) : Host.Outcome State Fault Refusal :=
  match i with
  | .powerOnReset straps => Sys2Proof.Machine.execPowerOnReset straps s
  | .status link body => Sys2Proof.Machine.execStatus link body s
  | .unknownKind link kind body => Sys2Proof.Machine.execUnknownKind link kind body s
  | .badFrame link causes => Sys2Proof.Machine.execBadFrame link causes s
  | .gapTimeout link => Sys2Proof.Machine.execGapTimeout link s
  | .replySent link => Sys2Proof.Machine.execReplySent link s
  | .setLevel link body => Sys2Proof.Machine.execSetLevel link body s
  | .setTimer link body => Sys2Proof.Machine.execSetTimer link body s
  | .hold link body => Sys2Proof.Machine.execHold link body s
  | .resume link body => Sys2Proof.Machine.execResume link body s
  | .stopAll link body => Sys2Proof.Machine.execStopAll link body s
  | .setWindow link body => Sys2Proof.Machine.execSetWindow link body s
  | .permit link body => Sys2Proof.Machine.execPermit link body s
  | .enableGenerators link body => Sys2Proof.Machine.execEnableGenerators link body s
  | .checkTest link body => Sys2Proof.Machine.execCheckTest link body s
  | .restart link body => Sys2Proof.Machine.execRestart link body s
  | .readEvents link body => Sys2Proof.Machine.execReadEvents link body s
  | .readPans link body => Sys2Proof.Machine.execReadPans link body s
  | .readMap link body => Sys2Proof.Machine.execReadMap link body s
  | .configureRead link body => Sys2Proof.Machine.execConfigureRead link body s
  | .configureWrite link body => Sys2Proof.Machine.execConfigureWrite link body s
  | .hello link body => Sys2Proof.Machine.execHello link body s
  | .sweep link body => Sys2Proof.Machine.execSweep link body s
  | .fetch link body => Sys2Proof.Machine.execFetch link body s
  | .setCap link body => Sys2Proof.Machine.execSetCap link body s
  | .shed link body => Sys2Proof.Machine.execShed link body s
  | .readLoad link body => Sys2Proof.Machine.execReadLoad link body s
  | .switchEnd coil => Sys2Proof.Machine.execSwitchEnd coil s
  | .lostTimeExpiry slot => Sys2Proof.Machine.execLostTimeExpiry slot s
  | .partSecondElapsed slot => Sys2Proof.Machine.execPartSecondElapsed slot s
  | .timerDone slot => Sys2Proof.Machine.execTimerDone slot s
  | .boostEnded slot => Sys2Proof.Machine.execBoostEnded slot s
  | .permitExpired => Sys2Proof.Machine.execPermitExpired s
  | .shedDeadlineExpiry phase => Sys2Proof.Machine.execShedDeadlineExpiry phase s
  | .leaseExpiry g => Sys2Proof.Machine.execLeaseExpiry g s
  | .yieldTimeout g => Sys2Proof.Machine.execYieldTimeout g s
  | .collectionExpiry g => Sys2Proof.Machine.execCollectionExpiry g s
  | .holdEnd g => Sys2Proof.Machine.execHoldEnd g s
  | .waitConditionCleared g => Sys2Proof.Machine.execWaitConditionCleared g s
  | .linkByteReceived link line => Sys2Proof.Machine.execLinkByteReceived link line s
  | .rstTakenLow => Sys2Proof.Machine.execRstTakenLow s

end Sys2Proof.Machine
end

