-- ==== Sys2Proof/Machine/Step.lean ====
section
/-! DEFINITION. The step: the command at the front of the queue, or, on an empty queue, an expiry that has fallen due or one millisecond. -/

namespace Sys2Proof.Machine

/-- The block with nothing commanded (assumption log 2, 3): held in reset it stands still; an expiry that has
fallen due is taken, a free choice deciding between several; otherwise a millisecond passes. -/
def idle (s : State) : Host.Outcome State Fault Refusal :=
  if s.rstLow then .next s
  else match s.dues with
    | [] => .next (millisecond s).state
    | [c] => exec c s
    | c :: d :: rest =>
      let all := c :: d :: rest
      exec (all.getD (Config.freeChoice s.freeCount % all.length) c) { s with freeCount := s.freeCount + 1 }

/-- One step (assumption log 2). -/
def step (s : State) : Host.Outcome State Fault Refusal :=
  match s.pending with
  | [] => idle s
  | c :: rest => exec c { s with pending := rest }

/-- The state with the command that a word spells at the front of its queue; no word spells one. -/
def State.withFetchWord (s : State) (nbits w : Nat) : State :=
  match Sys2Proof.decodeTableWord nbits w with
  | some c => { s with pending := c :: s.pending }
  | none => s

end Sys2Proof.Machine
end

