-- ==== Sys2Proof/Safety.lean ====
section
/-! DEFINITION. The predicates the statements are made of: valid codes, the invariants of the records, what a piece of work leaves alone, and what a reply says. -/

namespace Sys2Proof.Machine

/-! ## Check codes and standing counts -/

/-- The order a desk holds, if any, carries a valid code. -/
def Desk.orderOk (d : Desk) : Bool :=
  match d.order with
  | some o => o.codeOk
  | none => true

/-- Every stored check code matches its record and no table mark is armed (R165, R172): nothing can enter SAFE. -/
structure State.Sound (s : State) : Prop where
  coils : ∀ c, (s.coil c).codeOk = true
  pans : ∀ n, (s.pan n).codeOk = true
  orders : ∀ g, (s.desk g).orderOk = true
  levels : s.levels.codeOk = true
  marks : s.marks = TableMarks.clear

/-- No pan timer and no boost remaining stands at 0, waiting for its pan to become heating-eligible (R91, R97). -/
def State.Calm (s : State) : Prop := ∀ n, (s.pan n).timer ≠ some 0 ∧ (s.pan n).boost ≠ some 0

/-! ## Links -/

/-- RST is high and the port is IDLE: a message can arrive whole. -/
def State.Listens (s : State) (l : Link) : Prop := s.rstLow = false ∧ (s.port l).rx = .idle

/-- The reply a port is sending. -/
def State.replyOn (s : State) (l : Link) : Option Reply :=
  match (s.port l).rx with
  | .inHand _ _ r => some r
  | _ => none

/-- A reply has been begun on a link (R183, R185): it has this kind, its body is the link flags as they stood before
it and then these fields, OVERRUN is clear, and nothing outside the port has changed. -/
structure Answered (l : Link) (kind : Byte) (fields : List Byte) (u t : State) : Prop where
  same : t = { u with ports := t.ports }
  others : ∀ k, k ≠ l → t.port k = u.port k
  replied : ∃ r, t.replyOn l = some r ∧ r.kind = kind ∧ r.body = u.linkFlags l :: fields
  overrun : (t.port l).overrun = false

/-- A reply has been begun on a link whose CHECK is the CRC of its bytes, or, spoiled, that value inverted (R173, R185). -/
def Sends (spoiled : Bool) (l : Link) (t : State) : Prop :=
  ∃ r, t.replyOn l = some r ∧
    r.check = crc (byteOf r.body.length :: r.kind :: r.body) ^^^ (if spoiled then 0xFF else 0)

/-- PL is still sending the DONE of a CHECK TEST that names this link (R173). -/
def State.TestUnsent (s : State) (l : Link) : Prop :=
  ∃ m causes r b, (s.port .pl).rx = .inHand (some m) causes r ∧ r.kind = 0x81 ∧ m.kind = 0x19 ∧ m.body = [b] ∧
    targetFrom b = some (.link l)

/-- The command is answered on the link with REFUSED and this reason code, and nothing outside the port changes. -/
def Refuses (c : Instr) (l : Link) (code : Byte) (s : State) : Prop :=
  ∃ t, exec c s = .next t ∧ Answered l 0x84 [code] s t

/-- The command for a request kind; a CONFIGURE by the length of its body. -/
def requestCommand (k : ReqKind) (l : Link) (body : List Byte) : Instr :=
  match k with
  | .status => .status l body
  | .setLevel => .setLevel l body
  | .setTimer => .setTimer l body
  | .hold => .hold l body
  | .resume => .resume l body
  | .stopAll => .stopAll l body
  | .setWindow => .setWindow l body
  | .permit => .permit l body
  | .enableGenerators => .enableGenerators l body
  | .checkTest => .checkTest l body
  | .restart => .restart l body
  | .readEvents => .readEvents l body
  | .readPans => .readPans l body
  | .readMap => .readMap l body
  | .configure => if body.length = 3 then .configureWrite l body else .configureRead l body
  | .hello => .hello l body
  | .sweep => .sweep l body
  | .fetch => .fetch l body
  | .setCap => .setCap l body
  | .shed => .shed l body
  | .readLoad => .readLoad l body

/-! ## What work leaves alone -/

/-- ABSENT or DISABLED. -/
def GenState.isOut : GenState → Bool
  | .absent => true
  | .disabled => true
  | _ => false

/-- A pan record without what the Allocator, the Order Desk and Generator Plans write: debt, masks, energy,
plan and SPLIT flag, and the code. -/
def Pan.core (p : Pan) : Pan :=
  { p with debt := 0, short := 0, unserved := 0, energy := 0, plan := none, split := false, codeOk := true }

/-- What no sensing, no building, stopping or re-planning and no joining or leaving of a generator touches. -/
structure Unmoved (s t : State) : Prop where
  rstLow : t.rstLow = s.rstLow
  rate : t.rate = s.rate
  now : t.now = s.now
  windows : t.windows = s.windows
  watts : t.levels.watts = s.levels.watts
  params : t.params = s.params
  phaseOf : t.phaseOf = s.phaseOf
  permit : t.permit = s.permit
  safe : t.safe = s.safe
  pending : t.pending = s.pending
  freeCount : t.freeCount = s.freeCount
  target : ∀ p, (t.account p).target = (s.account p).target
  overrun : ∀ l, (t.port l).overrun = (s.port l).overrun
  forcedBad : ∀ l, (t.port l).forcedBad = (s.port l).forcedBad

/-- What every event between two resets leaves alone, but for the requests and expiries that are about it. -/
structure Undisturbed (s t : State) : Prop where
  rstLow : t.rstLow = s.rstLow
  rate : t.rate = s.rate
  now : t.now = s.now
  windows : t.windows = s.windows
  watts : t.levels.watts = s.levels.watts
  params : t.params = s.params
  phaseOf : t.phaseOf = s.phaseOf
  permit : t.permit = s.permit
  safe : t.safe = s.safe
  ports : t.ports = s.ports
  pending : t.pending = s.pending
  freeCount : t.freeCount = s.freeCount
  coverage : ∀ c, (t.coil c).coverage = (s.coil c).coverage
  hot : ∀ c, (t.coil c).hot = (s.coil c).hot
  fault : ∀ c, (t.coil c).fault = (s.coil c).fault
  target : ∀ p, (t.account p).target = (s.account p).target
  lastConfirmed : ∀ g, (t.desk g).lastConfirmed = (s.desk g).lastConfirmed
  out : ∀ g, (t.desk g).state.isOut = (s.desk g).state.isOut
  outState : ∀ g, (s.desk g).state.isOut = true → (t.desk g).state = (s.desk g).state

/-- What downward changes, rebuilds, stops and re-plan passes leave alone (R10, R73, R100, R136, R153). -/
structure OrderWork (s t : State) : Prop extends Undisturbed s t where
  partSeconds : t.partSeconds = s.partSeconds
  candidates : t.candidates = s.candidates
  priority : t.priority = s.priority
  pan : ∀ n, (t.pan n).core = (s.pan n).core
  idle : ∀ c, (s.coil c).state.owner = none → (s.coil c).state.order = none → t.coil c = s.coil c

/-- Downward-change reports on the orders of these generators (R100, R101), every check code being valid. -/
structure Reported (gs : List Gen) (s t : State) : Prop where
  work : reportAll gs s = .ok t
  sound : t.Sound
  frame : OrderWork s t

/-- No desk is WAITING. -/
def State.NoneWaits (s : State) : Prop := ∀ g e, (s.desk g).desk ≠ .waiting e

/-- What follows an event's own changes (R85, R91, R97, R149): completions that fall due for pans that have become
heating-eligible since the state before the event, then the test of the WAITING desks. With no count standing at 0 it
is work on orders only, and with no desk WAITING either it is nothing. -/
structure Settled (before s t : State) : Prop where
  work : settle before s = .ok t
  sound : t.Sound
  frame : Undisturbed s t
  idle : ∀ c, (s.coil c).state.owner = none → (s.coil c).state.order = none → t.coil c = s.coil c
  calm : s.Calm → OrderWork s t
  quiet : s.Calm → s.NoneWaits → t = s

/-! ## Counts -/

/-- The count whose running out an expiry command stands for: none for the commands that wait for no count, and for
TIMER_DONE, whose seconds are counted by PART_SECOND_ELAPSED. -/
def countOf : Instr → Option (State → Option Nat)
  | .switchEnd c => some (State.untilSwitchEnd c)
  | .lostTimeExpiry n => some (State.untilGone n)
  | .partSecondElapsed n => some (State.untilSecond n)
  | .boostEnded n => some (State.untilBoostEnd n)
  | .permitExpired => some State.untilPermitEnd
  | .shedDeadlineExpiry p => some (State.untilDeadline p)
  | .leaseExpiry g => some fun s => (s.desk g).lease
  | .yieldTimeout g => some fun s => (s.desk g).yield
  | .collectionExpiry g => some fun s => (s.desk g).collection
  | .holdEnd g => some fun s => (s.desk g).hold
  | .gapTimeout l => some (State.untilGap l)
  | _ => none

/-- The mark of a CHECK TEST target is set (R171). -/
def State.armed (s : State) : TestTarget → Bool
  | .none => false
  | .coilMap => s.marks.coilMap
  | .panTable => s.marks.panTable
  | .orders => s.marks.orders
  | .link l => (s.port l).forcedBad

/-- The bit of a CHECK TEST target in the mark set (R189). -/
def TestTarget.place : TestTarget → Nat
  | .none => 9
  | .coilMap => 0
  | .panTable => 1
  | .orders => 2
  | .link .pl => 3
  | .link (.gl g) => 4 + g.val
  | .link .sl => 8

/-! ## Reset, targets and the grid -/

/-- Every block holds its power-on values (R176); RST, the rate, the commands waiting and the hold ends are said apart. -/
structure State.AtPowerOn (t : State) : Prop where
  now : t.now = 0
  coils : ∀ c, t.coil c = ⟨.home, none, false, false, .off none, true⟩
  pans : ∀ n, t.pan n = Pan.freed 0 ∧ t.partSecond n = 0
  lists : t.candidates = [] ∧ t.priority = []
  windows : ∀ w, t.window w = ⟨.off, 0, 7, 0, 5, 0⟩
  levels : t.levels = ⟨#v[100, 200, 300, 450, 600, 800, 1000, 1250, 1500, 1800, 2100, 2500, 3600], true⟩
  times : t.params.lostTime = 6 ∧ t.params.orderLease = 2000 ∧ t.params.yieldTimeout = 50 ∧ t.params.collectionTime = 100 ∧
    t.params.boostDuration = 300 ∧ t.params.shedDeadline = 2000
  counts : t.params.repeatLimit = 64 ∧ t.params.confirmCount = 3
  phases : t.genPhase 0 = .l1 ∧ t.genPhase 1 = .l1 ∧ t.genPhase 2 = .l2 ∧ t.genPhase 3 = .l2
  accounts : ∀ p, t.account p = ⟨3680, 3680, 0, none⟩
  desks : ∀ g, (t.desk g).state = .absent ∧ (t.desk g).desk = .empty ∧ (t.desk g).repeats = 0 ∧ (t.desk g).order = none ∧
    (t.desk g).lastConfirmed = 0 ∧ (t.desk g).lease = none ∧ (t.desk g).yield = none ∧ (t.desk g).collection = none ∧
    (t.desk g).hold = none
  allocs : ∀ g, t.alloc g = ⟨0, []⟩
  permit : t.permit = .unset
  safe : t.safe = false
  marks : t.marks = TableMarks.clear
  events : t.events = [] ∧ t.eventsLost = false
  ports : ∀ l, t.port l = ⟨.idle, false, false⟩

/-- The account of a phase once its target moves (R111 to R113): at or above the load T and C take it and a pending shed
ends; a repeat changes nothing; below the load T takes it and a shed is pending with this deadline. The orders with a
charge are reported where that lowers T (R115). -/
def TargetMoved (p : Phase) (target deadline : Nat) (s u : State) : Prop :=
  let a := s.account p
  let met := s.setAccount p { a with target := target, committed := target, shed := none }
  let cut := s.setAccount p { a with target := target, shed := some ⟨deadline, deadline⟩ }
  match a.shed with
  | none =>
    if a.load ≤ target then u = met
    else Reported (s.chargedOn p) (cut.postEvent ⟨.shedStarted, s.now % 65536, none, none, none, some (.phase p)⟩) u
  | some x =>
    if a.load ≤ target then u = met.postEvent ⟨.shedDone, s.now % 65536, none, none, none, some (.phase p)⟩
    else if target = a.target ∧ deadline = x.deadline then u = s
    else if target < a.target then Reported (s.chargedOn p) cut u
    else u = cut

/-- What is left of a coil's return to rest once it is commanded (R12, R17): a relay energized or moving to the alternate
has 15 ms, one already moving to rest keeps its time, one at rest has none. -/
def returnLeft (r : Coil) : Option Nat :=
  match r.driver, r.state with
  | .alternate, _ => some 15
  | .home, .switching _ left => some left
  | .home, .off left => left
  | .home, _ => none

/-- The component a footprint picks of a list (R45): it shares coils with the footprint, and no other shares more, or as many
with a larger total, or as many with as large a total and a lower first coil. -/
structure IsPick (footprint : List CoilNo) (comps : List Component) (k : Component) : Prop where
  mem : k ∈ comps
  shares : overlap k.coils footprint ≠ 0
  best : ∀ m ∈ comps, m ≠ k → overlap m.coils footprint < overlap k.coils footprint ∨
    (overlap m.coils footprint = overlap k.coils footprint ∧
      (m.total < k.total ∨ (m.total = k.total ∧ k.coils.head? < m.coils.head?)))

/-- Two coils share an edge (00 section 1.1). -/
def Neighbours (a b : CoilNo) : Prop :=
  (row a = row b ∧ (column a + 1 = column b ∨ column b + 1 = column a)) ∨
    (column a = column b ∧ (row a + 1 = row b ∨ row b + 1 = row a))

/-! ## Invariants of the records -/

/-- Every stored check code matches its record (R165). -/
structure State.CodesOk (s : State) : Prop where
  coils : ∀ c, (s.coil c).codeOk = true
  pans : ∀ n, (s.pan n).codeOk = true
  orders : ∀ g, (s.desk g).orderOk = true
  levels : s.levels.codeOk = true

/-- The queue holds at most 16 events, and at most one PAN MOVED for each slot (R193); the LOST flag is set only while
it holds some (R196). -/
def QueueOk (s : State) : Prop :=
  s.events.length ≤ Config.queueRoom ∧ (s.eventsLost = true → s.events ≠ []) ∧
    ∀ n : Slot, (s.events.countP fun e => decide (e.kind = .panMoved) && (e.pan.map (·.slot) == some n)) ≤ 1

/-- A coil without a relay is driven from home, is never TRANSFER or SWITCHING, and has no movement (R2). -/
def CoilFixed (r : Coil) : Prop :=
  r.driver = .home ∧
    match r.state with
    | .off m => m = none
    | .transfer _ _ _ => False
    | .switching _ _ => False
    | _ => True

/-- Every coil of columns 0 and 7 stays at home (R2). -/
def RelaysOk (s : State) : Prop := ∀ c, hasRelay c = false → CoilFixed (s.coil c)

/-- The desk, the generator state, the order and the timers go together as R141 says. -/
def DeskOk (d : Desk) : Prop :=
  (match d.state, d.order, d.desk with
    | .absent, none, .empty => True
    | .stopped, none, .empty => True
    | .disabled, none, .empty => True
    | .joined, none, .empty => True
    | .joined, none, .waiting _ => True
    | .joined, some o, .complete _ => o.state = .built
    | .ordered, some o, .empty => o.state ≠ .built
    | .yielding, some o, .empty => o.state ≠ .built
    | _, _, _ => False) ∧
  (d.lease.isSome = true → d.state = .ordered ∨ d.state = .yielding) ∧
  (d.yield.isSome = true → d.state = .yielding) ∧
  (d.collection.isSome = true → ∃ e, d.desk = .complete e) ∧
  (d.hold.isSome = true → d.state = .stopped) ∧
  (d.desk = .empty → d.repeats = 0) ∧
  (∀ o, d.order = some o → o.charge = (o.legs.map (·.power)).sum)

/-- The load of a phase: the sum of the charges of its generators (R107). -/
def State.loadOf (s : State) (p : Phase) : Nat := ((allGens.filter fun g => decide (s.genPhase g = p)).map s.charge).sum

/-- The account of a phase (R107): the load is the sum of the charges, T and the load stay within C, T and C are
equal while no shed is pending, and a pending shed has T below the load. -/
def AccountOk (s : State) (p : Phase) : Prop :=
  (s.account p).load = s.loadOf p ∧ (s.account p).load ≤ (s.account p).committed ∧
    (s.account p).target ≤ (s.account p).committed ∧
    ((s.account p).shed = none → (s.account p).target = (s.account p).committed) ∧
    ((s.account p).shed.isSome = true → (s.account p).target < (s.account p).load)

/-- Both accounts and the four desks are in order (R107, R141). -/
def BudgetOk (s : State) : Prop := (∀ g, DeskOk (s.desk g)) ∧ ∀ p, AccountOk s p

/-- The Candidate List holds at most 4 (R42), the Priority List holds each PRESENT or LOST slot exactly once and no
other (R43), and a FREE slot holds the values of R40. -/
def ListsOk (s : State) : Prop :=
  s.candidates.length ≤ Config.candidateRoom ∧ s.priority.Nodup ∧ (∀ n, n ∈ s.priority ↔ (s.pan n).state ≠ .free) ∧
    ∀ n, (s.pan n).state = .free → s.pan n = { Pan.freed (s.pan n).tag with codeOk := (s.pan n).codeOk }

/-- Every configured value lies in its range (R188). -/
def ParamsOk (p : Params) : Prop :=
  (1 ≤ p.lostTime ∧ p.lostTime ≤ 30) ∧ (250 ≤ p.orderLease ∧ p.orderLease ≤ 5000) ∧
    (10 ≤ p.yieldTimeout ∧ p.yieldTimeout ≤ 200) ∧ (20 ≤ p.collectionTime ∧ p.collectionTime ≤ 500) ∧
    (1 ≤ p.repeatLimit ∧ p.repeatLimit ≤ 255) ∧ (1 ≤ p.confirmCount ∧ p.confirmCount ≤ 8) ∧
    (60 ≤ p.boostDuration ∧ p.boostDuration ≤ 600) ∧ (100 ≤ p.shedDeadline ∧ p.shedDeadline ≤ 10000)

/-- Every entry of the level table is 10 W to 3,600 W in steps of 10 W, and none is above the next (R90). -/
def LevelsOk (t : LevelTable) : Prop :=
  (∀ n : Fin 13, 10 ≤ t.entry n ∧ t.entry n ≤ 3600 ∧ t.entry n % 10 = 0) ∧
    ∀ m n : Fin 13, m ≤ n → t.entry m ≤ t.entry n

end Sys2Proof.Machine
end

