-- ==== Sys2Proof/Certificates/Slice0/Obligations.lean ====
section
/-! DEFINITION. The statements for the provers: the step and the time base, the invariants, the links, the requests, the expiries, the shared work on orders, and footprint evaluation and plans. -/

open Sys2Proof Sys2Proof.Machine

/-! ## The step, the time base and reset -/

/-- The command at the front of the queue is taken: a step is exec of it on the state with the queue's rest. -/
def Obligations.StepRunsTheFront : Prop :=
  ∀ (c : Instr) (s : State) (rest : List Instr), step { s with pending := c :: rest } = exec c { s with pending := rest }

/-- No command stops the part: each answers a next state, and leaves the commands waiting as they are. -/
def Obligations.EveryCommandCompletes : Prop :=
  ∀ (c : Instr) (s : State), ∃ t, exec c s = .next t ∧ t.pending = s.pending

/-- On an empty queue a millisecond passes when nothing has fallen due, and otherwise one of the expiries due is taken.
This is the model's choice: assumption log 2 and 3. An expiry is due exactly when its count stands at 0, the timer of a
heating-eligible pan stands at 0, or a WAITING desk's wait test passes; in a millisecond every running count loses one, and
the part-second of a heating-eligible pan with a timer gains one. -/
def Obligations.IdleStepPassesTime : Prop :=
  ∀ s : State, s.pending = [] → s.rstLow = false → s.Sound →
    (s.dues = [] → step s = .next { s.tickCounts with pans := Vector.ofFn fun n => (s.pan n).tick (s.heating n) }) ∧
    (s.dues ≠ [] → ∃ c, c ∈ s.dues ∧ (step s = exec c s ∨ step s = exec c { s with freeCount := s.freeCount + 1 })) ∧
    (∀ c, c ∈ s.dues ↔ (∃ f, countOf c = some f ∧ f s = some 0) ∨
      (∃ n, c = .timerDone n ∧ s.heating n = true ∧ (s.pan n).timer = some 0) ∨
      ∃ g entry, c = .waitConditionCleared g ∧ (s.desk g).desk = .waiting entry ∧ s.waitBlocked g = false) ∧
    (s.dues = [] → ∃ t, step s = .next t ∧ t.now = s.now + 1 ∧ t.Sound ∧
      (∀ c f, countOf c = some f → f t = (f s).map (· - 1)) ∧
      (∀ n, t.partSecond n = if s.heating n = true ∧ (s.pan n).timer.isSome = true then s.partSecond n + 1
        else s.partSecond n) ∧
      (∀ n, t.heating n = s.heating n ∧ (t.pan n).timer = (s.pan n).timer))

/-- An expiry command does nothing while its count does not run; while there is count left it is what it would be a
millisecond later, with one less left. The running of the time base is the model's choice: assumption log 4. -/
def Obligations.ExpiryWaitsForItsCount : Prop :=
  ∀ (c : Instr) (f : State → Option Nat) (s : State), countOf c = some f → s.rstLow = false →
    (f s = none → exec c s = .next s) ∧
    ∀ k, s.Sound → f s = some (k + 1) →
      ∃ u, millisecond s = .ok u ∧ f u = some k ∧ u.Sound ∧ exec c s = exec c u

/-- R176: after power-on reset every block holds its power-on values, and when RST rises the straps are sampled. While RST
is low the outputs are deasserted, and nothing is received and nothing counts. That the records hold their power-on values
already while RST is low is the model's choice (assumption log 13), and so is what a step on an empty queue does then (log
2). The commands waiting are the model's own (log 16). -/
def Obligations.PowerOnReset : Prop :=
  (∀ (s : State) (straps : BitVec 2), ∃ t, exec (.powerOnReset straps) s = .next t ∧ t.AtPowerOn ∧ t.rstLow = false ∧
    t.rate = straps ∧ t.pending = s.pending) ∧
  (∀ s : State, ∃ t, exec .rstTakenLow s = .next t ∧ t.AtPowerOn ∧ t.rstLow = true ∧ t.pending = s.pending) ∧
  ∀ s : State, s.rstLow = true →
    (∀ g, s.stopLine g = false ∧ s.yieldLine g = false) ∧ s.attn = false ∧ s.faultLine = false ∧
    (∀ c, s.relayLine c = false) ∧ (∀ l w, exec (.linkByteReceived l w) s = .next s) ∧
    (∀ k l body, exec (requestCommand k l body) s = .next s) ∧ (∀ l k body, exec (.unknownKind l k body) s = .next s) ∧
    (∀ l causes, exec (.badFrame l causes) s = .next s) ∧
    (∀ c f, countOf c = some f → exec c s = .next s) ∧ (∀ n, exec (.timerDone n) s = .next s) ∧
    (∀ g, exec (.waitConditionCleared g) s = .next s) ∧ (s.pending = [] → step s = .next s)

/-! ## Invariants -/

/-- The state after reset meets every invariant stated here. -/
def Obligations.InvariantsHoldAtReset : Prop :=
  State.reset.AtPowerOn ∧ State.reset.Sound ∧ State.reset.safe = false ∧ QueueOk State.reset ∧ RelaysOk State.reset ∧
    BudgetOk State.reset ∧ ListsOk State.reset ∧ ParamsOk State.reset.params ∧ LevelsOk State.reset.levels ∧
    State.reset.pending = []

/-- R193, R196: the Event Queue stays within 16 events and one PAN MOVED a slot, and LOST is set only while it holds some. -/
def Obligations.EventQueueStaysBounded : Prop :=
  ∀ s t : State, QueueOk s → step s = .next t → QueueOk t

/-- R2: the coils of columns 0 and 7 stay at home, and never enter TRANSFER or SWITCHING. -/
def Obligations.OuterColumnsStayHome : Prop :=
  ∀ s t : State, RelaysOk s → step s = .next t → RelaysOk t

/-- R107, R108, R141: on each phase the load stays the sum of the charges and within the committed cap, target and
committed cap stay equal while no shed is pending, and the desks stay as the generator states allow. -/
def Obligations.LoadStaysWithinTheCap : Prop :=
  ∀ s t : State, BudgetOk s → step s = .next t → BudgetOk t

/-- R40, R42, R43, R90, R188: the lists of the Pan Tracker stay in order, a FREE slot holds the values of a FREE slot, and
every configured value stays in its range. -/
def Obligations.ListsAndConfigurationStayInOrder : Prop :=
  ∀ s t : State, (ListsOk s ∧ ParamsOk s.params ∧ LevelsOk s.levels) → step s = .next t →
    ListsOk t ∧ ParamsOk t.params ∧ LevelsOk t.levels

/-- R165, R166: while every code matches and no table mark is armed, no step enters SAFE, and every code still matches. -/
def Obligations.ValidCodesStayValid : Prop :=
  ∀ s t : State, s.Sound → s.safe = false → step s = .next t → t.CodesOk ∧ t.safe = false

/-! ## Links -/

/-- R182: a port IN HAND marks OVERRUN at each byte and stays IN HAND; the end of its reply makes it IDLE; an IDLE port
discards every byte but an error-free SYNC. -/
def Obligations.PortInHandAndIdle : Prop :=
  ∀ (s : State) (l : Link) (w : LineByte), s.rstLow = false →
    (∀ m causes r, (s.port l).rx = .inHand m causes r →
      exec (.linkByteReceived l w) s = .next (s.setPort l ⟨.inHand m causes r, true, (s.port l).forcedBad⟩) ∧
      exec (.replySent l) s = .next (s.setPort l ⟨.idle, (s.port l).overrun, (s.port l).forcedBad⟩)) ∧
    ((s.port l).rx = .idle →
      (receivedByte w = ⟨0xC3, false, false⟩ → exec (.linkByteReceived l w) s =
        .next (s.setPort l ⟨.receiving [] Causes.none 0, (s.port l).overrun, (s.port l).forcedBad⟩)) ∧
      (receivedByte w ≠ ⟨0xC3, false, false⟩ → exec (.linkByteReceived l w) s = .next s))

/-- R180: how a RECEIVING port takes LEN, the bytes up to CHECK, and CHECK itself; a message whose CHECK agrees, with no
error noted, is the request its KIND names, and any other is answered BAD FRAME; the CRC register is stepped as R180 says.
R179: what a port receives of the bits on its line, what the part sends, and the rate the straps choose. -/
def Obligations.ReceivingPortAssembles : Prop :=
  (∀ (s : State) (l : Link) (w : LineByte) (bytes : List Byte) (noted : Causes) (gap : Nat),
    s.rstLow = false → (s.port l).rx = .receiving bytes noted gap →
    let b := receivedByte w
    let causes : Causes := { noted with parity := noted.parity || b.parityErr, framing := noted.framing || b.framingErr }
    let keeps : State := s.setPort l ⟨.receiving (bytes ++ [b.data]) causes 0, (s.port l).overrun, (s.port l).forcedBad⟩
    match bytes with
    | [] =>
      if b.data.toNat ≤ 248 then exec (.linkByteReceived l w) s = .next keeps
      else ∃ t, exec (.linkByteReceived l w) s = .next t ∧ Answered l 0x85 [causeCode { causes with length := true }] s t
    | len :: rest =>
      if rest.length ≠ len.toNat + 1 then exec (.linkByteReceived l w) s = .next keeps
      else if causes.any = true ∨ crc bytes ≠ b.data then
        ∃ t, exec (.linkByteReceived l w) s = .next t ∧
          Answered l 0x85 [causeCode { causes with check := causes.check || decide (crc bytes ≠ b.data) }] s t
      else ∀ kind body, rest = kind :: body → len.toNat ≤ 248 →
        (∀ k : ReqKind, k.code = kind → exec (.linkByteReceived l w) s = exec (requestCommand k l body) s) ∧
        ((∀ k : ReqKind, k.code ≠ kind) → exec (.linkByteReceived l w) s = exec (.unknownKind l kind body) s)) ∧
  crc [] = 0xFF ∧
  (∀ (bytes : List Byte) (b : Byte), crc (bytes ++ [b]) =
    (List.range 8).foldl (fun (r : Byte) _ => if r.msb then (r <<< 1) ^^^ 0x35 else r <<< 1) (crc bytes ^^^ b)) ∧
  (∀ w : LineByte, let b := receivedByte w
    (∀ i, i < 8 → b.data.getLsbD i = w.getLsbD i) ∧
    (b.parityErr = true ↔ ((List.range 9).filter fun i => w.getLsbD i).length % 2 = 1) ∧
    (b.framingErr = true ↔ w.getLsbD 9 = false) ∧
    lineLevels w = false :: (List.range 10).map w.getLsbD) ∧
  (∀ b : Byte, receivedByte (lineByte b) = ⟨b, false, false⟩) ∧
  (∀ r : Reply, r.onLine.map receivedByte =
    (0xC3 :: byteOf r.body.length :: r.kind :: r.body ++ [r.check]).map fun b => ⟨b, false, false⟩) ∧
  (∀ (s : State) (straps : BitVec 2), ∃ t, exec (.powerOnReset straps) s = .next t ∧ t.baud = baudOf straps) ∧
  baudOf 0 = 115200 ∧ baudOf 1 = 230400 ∧ baudOf 2 = 460800 ∧ baudOf 3 = 921600

/-- R181: a bad message is answered BAD FRAME with the first pending cause and changes nothing outside the port, and a
port in which the gap timer passes 5 ms ends its message so with cause GAP added. The count at which 5 ms have passed is
deduced: assumption log 12. -/
def Obligations.BadMessagesAreAnswered : Prop :=
  ∀ (s : State) (l : Link) (causes : Causes), s.rstLow = false →
    let first : Causes → Byte := fun c =>
      if c.parity then 0x01 else if c.framing then 0x02 else if c.length then 0x03 else if c.check then 0x04 else 0x05
    (causes.any = true → (s.port l).rx = .idle →
      ∃ t, exec (.badFrame l causes) s = .next t ∧ Answered l 0x85 [first causes] s t) ∧
    (∀ bytes noted gap, causes.any = true → (s.port l).rx = .receiving bytes noted gap →
      ∃ t, exec (.badFrame l causes) s = .next t ∧ Answered l 0x85 [first (noted.union causes)] s t) ∧
    (∀ m noted r, causes.any = true → (s.port l).rx = .inHand m noted r →
      exec (.badFrame l causes) s = .next (s.setPort l ⟨.inHand m noted r, true, (s.port l).forcedBad⟩)) ∧
    (∀ bytes noted, (s.port l).rx = .receiving bytes noted 6 →
      ∃ t, exec (.gapTimeout l) s = .next t ∧ Answered l 0x85 [first { noted with gap := true }] s t)

/-- R173, R185: an armed link mark spoils the CHECK byte of the reply that is begun next on its link, whatever the reply
says, and is cleared; otherwise CHECK is the CRC of the reply. A CHECK TEST on PL does not look at PL's mark for its own
reply. While the reply of a CHECK TEST that names the link is still being sent, the link's mark does not fire (assumption
log 9); a CHECK TEST refused on another link is no exception there (log 38). RESTART clears the marks before its reply. -/
def Obligations.ArmedLinkSpoilsTheNextReply : Prop :=
  (∀ (s : State) (l : Link), s.rstLow = false →
    let firesAt : Instr → Prop := fun c => ∃ t, exec c s = .next t ∧
      (¬ s.TestUnsent l → Sends (s.port l).forcedBad l t ∧ (t.port l).forcedBad = false) ∧
      (s.TestUnsent l → Sends false l t ∧ (t.port l).forcedBad = (s.port l).forcedBad)
    ((s.port l).rx = .idle →
      (∀ (k : ReqKind) (body : List Byte), bodyFits body = true → (k = .checkTest → l ≠ .pl) → k ≠ .restart →
        firesAt (requestCommand k l body)) ∧
      (∀ (kind : Byte) (body : List Byte), bodyFits body = true → (∀ k : ReqKind, k.code ≠ kind) →
        firesAt (.unknownKind l kind body)) ∧
      ∀ causes : Causes, causes.any = true → firesAt (.badFrame l causes)) ∧
    ∀ bytes noted, (s.port l).rx = .receiving bytes noted 6 → firesAt (.gapTimeout l)) ∧
  ∀ (s : State) (body : List Byte), s.Listens .pl → bodyFits body = true →
    (∃ t, exec (.checkTest .pl body) s = .next t ∧ Sends false .pl t) ∧
    ((s.safe = true ∨ (∀ b : Byte, body = [b] → 9 < b.toNat) ∨ ∃ g, s.charge g ≠ 0) →
      ∃ t, exec (.checkTest .pl body) s = .next t ∧ (t.port .pl).forcedBad = (s.port .pl).forcedBad) ∧
    ∃ t, exec (.restart .pl []) s = .next t ∧ Sends false .pl t ∧ ∀ l, (t.port l).forcedBad = false

/-- R184, steps 1 to 3: an unknown kind, a wrong link and a body on a kind that carries none are refused, in that order. -/
def Obligations.UnroutedRequestsAreRefused : Prop :=
  ∀ (s : State) (l : Link) (body : List Byte), s.Listens l → bodyFits body = true →
    (∀ kind, (∀ k : ReqKind, k.code ≠ kind) → Refuses (.unknownKind l kind body) l 0x02 s) ∧
    ∀ k : ReqKind,
      let allowed : Prop := k = .status ∨ ((k = .hello ∨ k = .sweep ∨ k = .fetch) ∧ ∃ g, l = .gl g) ∨
        ((k = .setCap ∨ k = .shed ∨ k = .readLoad) ∧ l = .sl) ∨ (0x11 ≤ k.code ∧ k.code ≤ 0x1E ∧ l = .pl)
      (¬ allowed → Refuses (requestCommand k l body) l 0x01 s) ∧
      (allowed → k ∈ [ReqKind.status, .hello, .stopAll, .restart, .readPans, .readMap, .readLoad] → body ≠ [] →
        Refuses (requestCommand k l body) l 0x03 s)

/-- R169: a SAFE part refuses every request allowed on its link with SAFE, but STATUS, RESTART and READ EVENTS. -/
def Obligations.SafePartRefuses : Prop :=
  ∀ (s : State) (k : ReqKind) (l : Link) (body : List Byte), s.safe = true → s.Listens l → bodyFits body = true →
    kindAllowed k l = true → (bodyless k = true → body = []) → k ∉ [ReqKind.status, .restart, .readEvents] →
    Refuses (requestCommand k l body) l 0x07 s

/-! ## Reports -/

/-- R118, R199: the 21 bytes of STATUS, on every link and in every state of the part; READ LOAD is refused in SAFE, and
otherwise reports both accounts and every generator's phase and charge. -/
def Obligations.StatusAndLoadReport : Prop :=
  (∀ (s : State) (l : Link), s.Listens l →
    let figures : Phase → List Byte := fun p =>
      wordOf (s.account p).target ++ wordOf (s.account p).committed ++ wordOf (s.account p).load
    let fields : List Byte := [if s.safe then 1 else 0, s.permit.code] ++ wordOf s.permit.remaining ++
      [(s.desk 0).state.code, (s.desk 1).state.code, (s.desk 2).state.code, (s.desk 3).state.code] ++
      figures .l1 ++ figures .l2
    (∃ t, exec (.status l []) s = .next t ∧ Answered l 0x81 fields s t) ∧ (s.linkFlags l :: fields).length = 21) ∧
  ∀ s : State, s.Listens .sl →
    let figures : Phase → List Byte := fun p =>
      wordOf (s.account p).target ++ wordOf (s.account p).committed ++ wordOf (s.account p).load ++
        (match (s.account p).shed with
        | some x => [1] ++ wordOf x.deadline ++ wordOf x.remaining
        | none => [0, 0, 0, 0, 0])
    let share : Gen → List Byte := fun g => phaseCode (s.genPhase g) :: wordOf (s.charge g)
    (s.safe = true → Refuses (.readLoad .sl []) .sl 0x07 s) ∧
    (s.safe = false → ∃ t, exec (.readLoad .sl []) s = .next t ∧
      Answered .sl 0x81 (figures .l1 ++ figures .l2 ++ share 0 ++ share 1 ++ share 2 ++ share 3) s t)

/-- R192, R195: READ EVENTS removes and returns the oldest events, with the LOST flag, which it clears; in every state of the
part. The seven bytes of an event: kind, timestamp, slot and tag, generator, coil, cause. -/
def Obligations.ReadEventsDrains : Prop :=
  (∀ e : Event, ∃ pan : Byte,
    e.bytes = [e.kind.code, BitVec.ofNat 8 e.stamp, BitVec.ofNat 8 (e.stamp / 256), pan,
      (e.gen.map fun g => BitVec.ofNat 8 g.val).getD 0xFF, (e.coil.map fun c => BitVec.ofNat 8 c.val).getD 0xFF,
      (e.cause.map EventCause.code).getD 0xFF] ∧
    (e.pan = none → pan = 0) ∧
    ∀ p, e.pan = some p → pan.toNat % 16 = (p.tag.map (·.val)).getD 0 ∧ pan.toNat / 16 % 8 = p.slot.val ∧ pan.getLsbD 7 = true) ∧
  (let kinds : List EventKind := [.panConfirmed, .panRefused, .panMoved, .panLost, .panReturned, .panGone, .levelSetByWindow,
      .timerDone, .boostEnded, .powerReduced, .powerRestored, .panBarred, .panCleared, .coilFault, .generatorJoined,
      .generatorStopped, .generatorStarved, .shedStarted, .shedDone, .permitExpired, .safeEntered]
   (∀ k : EventKind, k ∈ kinds) ∧ kinds.map (fun k => k.code.toNat) = List.range' 1 21) ∧
  ([StopCause.yieldTimeout, .orderMismatch, .shed, .stopAll, .disable, .restart, .safe].map
      fun c => (EventCause.stop c).code.toNat) = List.range' 1 7 ∧
  (EventCause.phase .l1).code = 0x11 ∧ (EventCause.phase .l2).code = 0x12 ∧
  ([TableName.coilMap, .panTable, .orders, .levelTable].map fun x => (EventCause.table x).code.toNat) = List.range' 0x21 4 ∧
  (∀ w : WindowNo, (EventCause.window w).code.toNat = 0x30 + w.val) ∧
  ∀ (s : State) (body : List Byte), s.Listens .pl → bodyFits body = true →
    (∀ count : Byte, body = [count] → 1 ≤ count.toNat → count.toNat ≤ 8 →
      let taken := s.events.take count.toNat
      let u : State := { s with events := s.events.drop count.toNat, eventsLost := false }
      ∃ t, exec (.readEvents .pl body) s = .next t ∧
        Answered .pl 0x81 ([if s.eventsLost then 1 else 0, byteOf taken.length] ++ taken.flatMap Event.bytes) u t) ∧
    ((∀ count : Byte, body = [count] → count.toNat = 0 ∨ 8 < count.toNat) → Refuses (.readEvents .pl body) .pl 0x03 s)

/-- R192, R197, R198: READ PANS and READ MAP return their entries when every code read matches; the first record whose code
fails puts the part into SAFE, and the request is refused with SAFE. That READ PANS reads the records of FREE slots too is
the model's choice (assumption log 44), and so is that the bits the layouts do not name are sent as 0 (log 46). The fifteen
bytes of a pan, a PRESENT or LOST one having a centre, the delivered power, and the three bytes of a coil. -/
def Obligations.SnapshotsReport : Prop :=
  (∀ (n : Slot) (power : Nat) (p : Pan), ∃ slotState levelWindow flags : Byte,
    let word : Nat → List Byte := fun v => [BitVec.ofNat 8 v, BitVec.ofNat 8 (v / 256)]
    p.bytes n power = [slotState, BitVec.ofNat 8 p.tag.val, levelWindow, flags,
      BitVec.ofNat 8 ((p.centre.map (·.col)).getD 0), BitVec.ofNat 8 ((p.centre.map (·.row)).getD 0),
      BitVec.ofNat 8 p.footprint.length] ++ word power ++ word (p.timer.getD 0xFFFF) ++
      word (p.energy / 1000 / 3600 % 65536) ++ word p.total ∧
    slotState.toNat % 8 = n.val ∧ slotState.getLsbD 3 = false ∧
    (slotState.toNat / 16 = match p.state with
      | .free => 0
      | .present => 1
      | .lost => 2) ∧
    levelWindow.toNat % 16 = p.level.val ∧ levelWindow.toNat / 16 % 8 = (p.window.map (·.val + 1)).getD 0 ∧
    levelWindow.getLsbD 7 = decide (p.source = .window) ∧
    flags.getLsbD 0 = p.held ∧ flags.getLsbD 1 = p.barred ∧ flags.getLsbD 2 = decide (p.short ≠ 0) ∧
    flags.getLsbD 3 = decide (p.unserved ≠ 0) ∧ flags.getLsbD 4 = p.split ∧ flags.getLsbD 5 = p.autoHold ∧
    flags.getLsbD 6 = p.holdOnLift ∧ flags.getLsbD 7 = false) ∧
  (∀ (excluded : Bool) (owner : Option PanId) (r : Coil), ∃ conditions holder : Byte,
    r.bytes excluded owner = [conditions, holder, (r.coverage.map fun v => BitVec.ofNat 8 v.val).getD 0xFF] ∧
    (conditions.toNat % 8 = match r.state with
      | .off _ => 0
      | .free => 1
      | .claimed _ => 2
      | .driven _ _ => 3
      | .releasing _ _ _ => 4
      | .transfer _ _ _ => 5
      | .switching _ _ => 6) ∧
    conditions.getLsbD 3 = decide (r.driver = .alternate) ∧ conditions.getLsbD 4 = r.hot ∧ conditions.getLsbD 5 = r.fault ∧
    conditions.getLsbD 6 = excluded ∧ conditions.getLsbD 7 = false ∧
    (owner = none → holder = 0) ∧
    ∀ o, owner = some o → holder.toNat % 16 = o.tag.val ∧ holder.toNat / 16 % 8 = o.slot.val ∧ holder.getLsbD 7 = true) ∧
  (∀ (s : State) (n : Slot), s.deliveredPower n = if (s.pan n).state = .present then
    (allGens.map fun g => match s.issuedOrder g with
      | some o => ((o.legs.filter fun l => decide (l.pan = s.panId n)).map (·.power)).sum
      | none => 0).sum else 0) ∧
  ∀ s : State, s.Listens .pl → s.safe = false →
    ((∀ n, (s.pan n).codeOk = true) →
      let shown := allSlots.filter fun n => decide ((s.pan n).state ≠ .free)
      ∃ t, exec (.readPans .pl []) s = .next t ∧
        Answered .pl 0x81 (byteOf shown.length :: shown.flatMap fun n => (s.pan n).bytes n (s.deliveredPower n)) s t) ∧
    ((∀ c, (s.coil c).codeOk = true) →
      ∃ t, exec (.readMap .pl []) s = .next t ∧
        Answered .pl 0x81 (allCoils.flatMap fun c => (s.coil c).bytes (s.excluded c) (s.coil c).state.owner) s t) ∧
    (∀ n : Slot, (s.pan n).codeOk = false → (∀ m, m < n → (s.pan m).codeOk = true) →
      ∃ t, exec (.readPans .pl []) s = .next t ∧ Answered .pl 0x84 [0x07] (enterSafe (.pan n) s) t) ∧
    (∀ c : CoilNo, (s.coil c).codeOk = false → (∀ d, d < c → (s.coil d).codeOk = true) →
      ∃ t, exec (.readMap .pl []) s = .next t ∧ Answered .pl 0x84 [0x07] (enterSafe (.coil c) s) t)

/-! ## Configuration, integrity, reset by request -/

/-- R187: the tests of CONFIGURE in their order, the value a read reports and the value a write stores. That a write of a
level-table entry verifies the table's code ahead of the tests of the range and of the charges is the model's choice:
assumption log 47. -/
def Obligations.ConfigureReadsAndWrites : Prop :=
  ∀ (s : State) (code lo hi : Byte) (body : List Byte), s.Listens .pl → bodyFits body = true →
    (s.safe = true → Refuses (.configureRead .pl body) .pl 0x07 s ∧ Refuses (.configureWrite .pl [code, lo, hi]) .pl 0x07 s) ∧
    (s.safe = false →
      (body.length ≠ 1 → body.length ≠ 3 → Refuses (.configureRead .pl body) .pl 0x03 s) ∧
      (paramFrom code = none → Refuses (.configureRead .pl [code]) .pl 0x03 s ∧
        Refuses (.configureWrite .pl [code, lo, hi]) .pl 0x03 s) ∧
      ∀ p, paramFrom code = some p →
        let v := wordFrom lo hi
        ((∃ n, p = .level n) → s.levels.codeOk = false →
          (∃ t, exec (.configureRead .pl [code]) s = .next t ∧ Answered .pl 0x84 [0x07] (enterSafe .levels s) t) ∧
          ∃ t, exec (.configureWrite .pl [code, lo, hi]) s = .next t ∧ Answered .pl 0x84 [0x07] (enterSafe .levels s) t) ∧
        (((∃ n, p = .level n) → s.levels.codeOk = true) →
          (∃ t, exec (.configureRead .pl [code]) s = .next t ∧
            Answered .pl 0x81 (code :: wordOf (s.paramValue p)) s t) ∧
          (s.paramFits v p = false → Refuses (.configureWrite .pl [code, lo, hi]) .pl 0x03 s) ∧
          (s.paramFits v p = true → (∃ g, s.charge g ≠ 0) → Refuses (.configureWrite .pl [code, lo, hi]) .pl 0x06 s) ∧
          (s.paramFits v p = true → (∀ g, s.charge g = 0) →
            ∃ u t, exec (.configureWrite .pl [code, lo, hi]) s = .next t ∧ Answered .pl 0x81 (code :: wordOf v) u t ∧
              u = { s with levels := u.levels, params := u.params, phaseOf := u.phaseOf } ∧ u.paramValue p = v ∧
              (∀ q, q ≠ p → u.paramValue q = s.paramValue q) ∧ (s.levels.codeOk = true → u.levels.codeOk = true))))

/-- R188: the code, the range and the default of each of the 25 parameters. -/
def Obligations.ParameterTable : Prop :=
  (∀ n : Fin 13, paramFrom (byteOf (n.val + 1)) = some (.level n)) ∧
  (∀ g : Gen, paramFrom (byteOf (0x10 + g.val)) = some (.phase g)) ∧
  paramFrom 0x20 = some .lostTime ∧ paramFrom 0x21 = some .orderLease ∧ paramFrom 0x22 = some .yieldTimeout ∧
  paramFrom 0x23 = some .collectionTime ∧ paramFrom 0x24 = some .repeatLimit ∧ paramFrom 0x25 = some .confirmCount ∧
  paramFrom 0x26 = some .boostDuration ∧ paramFrom 0x27 = some .shedDeadline ∧
  (∀ b : Byte, (b = 0 ∨ (0x0E ≤ b ∧ b ≤ 0x0F) ∨ (0x14 ≤ b ∧ b ≤ 0x1F) ∨ 0x28 ≤ b) → paramFrom b = none) ∧
  (∀ (s : State) (v : Nat),
    (∀ n : Fin 13, s.paramFits v (.level n) = true ↔ (10 ≤ v ∧ v ≤ 3600 ∧ v % 10 = 0) ∧
      (∀ m : Fin 13, m.val + 1 = n.val → s.levels.entry m ≤ v) ∧ (∀ m : Fin 13, n.val + 1 = m.val → v ≤ s.levels.entry m)) ∧
    (∀ g, s.paramFits v (.phase g) = true ↔ 1 ≤ v ∧ v ≤ 2) ∧
    (s.paramFits v .lostTime = true ↔ 1 ≤ v ∧ v ≤ 30) ∧ (s.paramFits v .orderLease = true ↔ 250 ≤ v ∧ v ≤ 5000) ∧
    (s.paramFits v .yieldTimeout = true ↔ 10 ≤ v ∧ v ≤ 200) ∧ (s.paramFits v .collectionTime = true ↔ 20 ≤ v ∧ v ≤ 500) ∧
    (s.paramFits v .repeatLimit = true ↔ 1 ≤ v ∧ v ≤ 255) ∧ (s.paramFits v .confirmCount = true ↔ 1 ≤ v ∧ v ≤ 8) ∧
    (s.paramFits v .boostDuration = true ↔ 60 ≤ v ∧ v ≤ 600) ∧ (s.paramFits v .shedDeadline = true ↔ 100 ≤ v ∧ v ≤ 10000)) ∧
  (∀ straps q n, (State.powerOn straps q n).AtPowerOn)

/-- R171, R173, R185: CHECK TEST's tests in their order, the marks it sets or clears, and when no mark is set; its own reply
carries the correct CHECK, and the mark of PL stands after it as the CHECK TEST has left it. -/
def Obligations.CheckTestArms : Prop :=
  (∀ (s : State) (body : List Byte), s.Listens .pl → bodyFits body = true →
    let marks : State → Nat := fun u => ([TestTarget.coilMap, .panTable, .orders, .link .pl, .link (.gl 0), .link (.gl 1),
      .link (.gl 2), .link (.gl 3), .link .sl].map fun x => if u.armed x then 2 ^ x.place else 0).sum
    (s.safe = true → Refuses (.checkTest .pl body) .pl 0x07 s) ∧
    (s.safe = false → (∀ b : Byte, body = [b] → 9 < b.toNat) → Refuses (.checkTest .pl body) .pl 0x03 s) ∧
    ∀ b target, s.safe = false → body = [b] → targetFrom b = some target →
      ((∃ g, s.charge g ≠ 0) → Refuses (.checkTest .pl body) .pl 0x06 s) ∧
      ((∀ g, s.charge g = 0) →
        ∃ u t, exec (.checkTest .pl body) s = .next t ∧ Answered .pl 0x81 (wordOf (marks u)) u t ∧
          Sends false .pl t ∧ (∀ l, (t.port l).forcedBad = (u.port l).forcedBad) ∧
          u = { s with marks := u.marks, ports := u.ports } ∧
          (∀ l, (u.port l).rx = (s.port l).rx ∧ (u.port l).overrun = (s.port l).overrun) ∧
          ∀ x, x ≠ .none → (u.armed x = true ↔ target ≠ .none ∧ (x = target ∨ s.armed x = true)))) ∧
  (∀ (s : State) (x : TestTarget), (restart s).armed x = false) ∧
  (∀ straps q n x, (State.powerOn straps q n).armed x = false) ∧
  ∀ (b : BadRecord) (s : State), (enterSafe b s).marks = TableMarks.clear ∧ (enterSafe b s).ports = s.ports

/-- R165, R166, R172: an update verifies the record and writes it with a valid code, or, when the mark of its table is
armed, with a bad code and the mark cleared; a record whose code fails puts the part into SAFE, and what was still to do is
not done. A record that an update leaves unchanged is not written: assumption log 6. -/
def Obligations.UpdatesVerifyAndRefresh : Prop :=
  (∀ (s : State) (k : State → Flow), (Flow.ok s).andThen k = k s ∧ (Flow.safe s).andThen k = .safe s) ∧
  (∀ (α : Type) (work : α → State → Flow) (xs : List α) (s : State),
    forEach work xs s = xs.foldl (fun f x => f.andThen (work x)) (Flow.ok s)) ∧
  (∀ (s : State) (c : CoilNo) (f : Coil → Coil),
    ((s.coil c).codeOk = false → editCoil c f s = .safe (enterSafe (.coil c) s)) ∧
    ((s.coil c).codeOk = true → f (s.coil c) = s.coil c → editCoil c f s = .ok s) ∧
    ((s.coil c).codeOk = true → f (s.coil c) ≠ s.coil c → editCoil c f s = .ok { s with
      coils := s.coils.set c { f (s.coil c) with codeOk := !s.marks.coilMap }
      marks := { s.marks with coilMap := false } })) ∧
  (∀ (s : State) (n : Slot) (f : Pan → Pan),
    ((s.pan n).codeOk = false → editPan n f s = .safe (enterSafe (.pan n) s)) ∧
    ((s.pan n).codeOk = true → f (s.pan n) = s.pan n → editPan n f s = .ok s) ∧
    ((s.pan n).codeOk = true → f (s.pan n) ≠ s.pan n → editPan n f s = .ok { s with
      pans := s.pans.set n { f (s.pan n) with codeOk := !s.marks.panTable }
      marks := { s.marks with panTable := false } })) ∧
  (∀ (s : State) (n : Slot) (f : Pan → Pan),
    ((s.pan n).codeOk = false → rewritePan n f s = .safe (enterSafe (.pan n) s)) ∧
    ((s.pan n).codeOk = true → rewritePan n f s = .ok { s with
      pans := s.pans.set n { f (s.pan n) with codeOk := !s.marks.panTable }
      marks := { s.marks with panTable := false } })) ∧
  (∀ (s : State) (g : Gen) (legs : List Leg), (s.writeOrder g legs).marks = { s.marks with orders := false } ∧
    ∃ o, ((s.writeOrder g legs).desk g).order = some o ∧ o.codeOk = !s.marks.orders) ∧
  ∀ (s : State) (g : Gen) (o : Order), (s.desk g).order = some o → o.codeOk = false →
    checkOrder g s = .safe (enterSafe (.order g) s)

/-- R12, R17, R120, R166 to R168: the state that SAFE entry at a record leaves. -/
def Obligations.SafeEntryLeaves : Prop :=
  ∀ (b : BadRecord) (s : State),
    let t := enterSafe b s
    let named : Option EventPan × Option Gen × Option CoilNo × TableName :=
      match b with
      | .coil c => (none, none, some c, .coilMap)
      | .pan n => (some ⟨n, none⟩, none, none, .panTable)
      | .order g => (none, some g, none, .orders)
      | .levels => (none, none, none, .levelTable)
    let posted := (allGens.filter fun g => decide ((s.desk g).state ≠ .disabled)).foldl (fun x g => x.postStopped g .safe)
      (s.postEvent ⟨.safeEntered, s.now % 65536, named.1, named.2.1, named.2.2.1, some (.table named.2.2.2)⟩)
    t.safe = true ∧ t.faultLine = !s.rstLow ∧ t.events = posted.events ∧ t.eventsLost = posted.eventsLost ∧
    (∀ c, t.coil c = ⟨.home, none, (s.coil c).hot, (s.coil c).fault, .off (returnLeft (s.coil c)), true⟩) ∧
    (∀ n, t.pan n = Pan.freed (s.pan n).tag ∧ t.partSecond n = 0) ∧ t.candidates = [] ∧ t.priority = [] ∧
    (∀ p, t.account p = ⟨(s.account p).target, (s.account p).target, 0, none⟩) ∧
    (∀ g, (s.desk g).state = .disabled → t.desk g = s.desk g) ∧
    (∀ g, (s.desk g).state ≠ .disabled → t.desk g = { s.desk g with
      state := .stopped, desk := .empty, repeats := 0, order := none, lease := none, yield := none, collection := none, hold := none }) ∧
    (∀ g, t.alloc g = ⟨(s.alloc g).lastNumber, []⟩) ∧ t.permit = .unset ∧ t.levels = ⟨s.levels.watts, true⟩ ∧
    t.windows = s.windows ∧ t.params = s.params ∧ t.phaseOf = s.phaseOf ∧ t.marks = TableMarks.clear ∧ t.ports = s.ports ∧
    t.now = s.now ∧ t.rate = s.rate ∧ t.rstLow = s.rstLow ∧ t.pending = s.pending

/-- R12, R17, R174, R175: the state that RESTART leaves, in every state of the part, and its DONE with no link flag set. A
coil at rest whose release from its order would start it toward its alternate (R10) comes back from there. -/
def Obligations.RestartLeaves : Prop :=
  ∀ s : State, s.Listens .pl →
    ∃ u t, exec (.restart .pl []) s = .next t ∧ Answered .pl 0x81 [] u t ∧ u.linkFlags .pl = 0 ∧
      u.safe = false ∧ u.events = [] ∧ u.eventsLost = false ∧
      (let released : CoilNo → Prop := fun c => (s.desk (homeGen c)).state.inService = true ∧
         ∃ o, (s.desk (homeGen c)).order = some o ∧ (s.coil c).state.order = some o.number
       let follows : CoilNo → PanId → Prop := fun c p => hasRelay c = true ∧ (s.pan p.slot).tag = p.tag ∧
         ∃ plan, (s.pan p.slot).plan = some plan ∧ plannedPosition c plan = .alternate
       let starts : CoilNo → Prop := fun c => released c ∧
         match (s.coil c).state with
         | .driven p _ => follows c p
         | .releasing (some p) _ false => follows c p
         | .transfer p _ d => d = .alternate ∨ follows c p
         | _ => False
       ∀ c, ∃ m, u.coil c = ⟨.home, none, (s.coil c).hot, (s.coil c).fault, .off m, true⟩ ∧
         ((s.coil c).driver = .home → starts c → m = some 15) ∧
         (((s.coil c).driver = .home → ¬ starts c) → m = returnLeft (s.coil c))) ∧
      (∀ n, u.pan n = Pan.freed (s.pan n).tag ∧ u.partSecond n = 0) ∧ u.candidates = [] ∧ u.priority = [] ∧
      (∀ p, u.account p = ⟨(s.account p).target, (s.account p).target, 0, none⟩) ∧
      (∀ g, (s.desk g).state = .absent ∨ (s.desk g).state = .disabled → (∀ o, (s.desk g).order ≠ some o) →
        u.desk g = s.desk g) ∧
      (∀ g, (s.desk g).state = .stopped → (∀ o, (s.desk g).order ≠ some o) →
        u.desk g = { s.desk g with hold := some 250, holdEnd := .absent }) ∧
      (∀ g, (s.desk g).state.inService = true → u.desk g = { s.desk g with
        state := .stopped, desk := .empty, repeats := 0, order := none, lease := none, yield := none, collection := none,
        hold := some 250, holdEnd := .absent }) ∧
      (∀ g, u.alloc g = ⟨(s.alloc g).lastNumber, []⟩) ∧ u.permit = .unset ∧ u.levels = s.levels ∧ u.windows = s.windows ∧
      u.params = s.params ∧ u.phaseOf = s.phaseOf ∧ u.marks = TableMarks.clear ∧
      (∀ l, u.port l = ⟨(s.port l).rx, false, false⟩) ∧ u.now = s.now ∧ u.rate = s.rate ∧ u.pending = s.pending

/-! ## The panel's requests -/

/-- R85, R162, R163: when a pan is heating-eligible. PERMIT loads the permit remaining and sets the permit RUNNING; what
becomes heating-eligible is made known. It is answered DONE also where a check fails meanwhile. At the expiry of the permit
every pan is held, each order with a charge is reported, and every WAITING desk builds an order with no legs. -/
def Obligations.PermitRunsAndExpires : Prop :=
  (∀ (s : State) (n : Slot), s.heating n = true ↔ (s.pan n).state = .present ∧ (s.pan n).level ≠ 0 ∧ (s.pan n).held = false ∧
    (s.pan n).barred = false ∧ (∃ ms, s.permit = .running ms) ∧ s.safe = false) ∧
  (∀ (s : State) (period : Byte), s.Listens .pl → s.safe = false → 1 ≤ period.toNat → period.toNat ≤ 60 →
     let u := (settle s { s with permit := .running (period.toNat * 1000) }).state
     ∃ t, exec (.permit .pl [period]) s = .next t ∧ Answered .pl 0x81 (u.permit.code :: wordOf u.permit.remaining) u t) ∧
  (∀ (s : State) (period : Byte), s.Listens .pl → s.Sound → s.safe = false → 1 ≤ period.toNat → period.toNat ≤ 60 →
     ∃ u t, exec (.permit .pl [period]) s = .next t ∧
       Settled s { s with permit := .running (period.toNat * 1000) } u ∧
       Answered .pl 0x81 (1 :: wordOf (period.toNat * 1000)) u t) ∧
  (∀ s : State, s.rstLow = false → s.Sound → s.permit = .running 0 →
     let held : State := ({ s with
       permit := .expired
       pans := Vector.ofFn fun n => if (s.pan n).state ≠ PanState.free then { s.pan n with held := true } else s.pan n }).postEvent
         ⟨.permitExpired, s.now % 65536, none, none, none, none⟩
     ∃ s1 u, exec .permitExpired s = .next u ∧
       Reported (allGens.filter fun g => decide (s.charge g ≠ 0)) held s1 ∧ OrderWork s1 u ∧ u.Sound ∧
       ∀ g, (∀ e, (s1.desk g).desk = .waiting e → (u.desk g).desk = .complete e ∧
           (u.desk g).collection = some s.params.collectionTime ∧
           ∃ o, (u.desk g).order = some o ∧ o.state = .built ∧ o.legs = [] ∧ o.charge = 0) ∧
         ((∀ e, (s1.desk g).desk ≠ .waiting e) → u.desk g = s1.desk g))

/-- R88, R89, R91, R96: SET LEVEL writes the level, the source and the boost remaining; a raise moves the slot to the front of
the Priority List, and a lowering is reported to each order with a leg for the pan. SET TIMER writes the timer and both
settings and starts the second afresh; a timer of 0 on a heating-eligible pan completes before the reply. Where a check
fails meanwhile the rest is not done, and the answer is DONE with the fields of the FREE slot. That such a completion writes
the record a second time, so that an armed mark is met there, is the model's choice: assumption log 48. -/
def Obligations.SetLevelAndSetTimerTake : Prop :=
  (∀ (s : State) (n : Slot) (level : Fin 14), s.Listens .pl → s.Sound → s.safe = false → (s.pan n).state ≠ .free →
     let written : State := s.setPan n { s.pan n with
       level := level, source := .panel, boost := if level = 13 then some (s.params.boostDuration * 1000) else none }
     ∃ s1 u t, exec (.setLevel .pl [byteOf n.val, byteOf (s.pan n).tag.val, byteOf level.val]) s = .next t ∧
       ((s.pan n).level < level → s1 = { written with priority := n :: s.priority.erase n }) ∧
       ((s.pan n).level = level → s1 = written) ∧
       (level < (s.pan n).level → Reported (s.legHolders (s.panId n)) written s1) ∧
       Settled s s1 u ∧
       Answered .pl 0x81 ([byteOf n.val, byteOf (u.pan n).tag.val, byteOf (u.pan n).level.val, byteOf (u.pan n).source.code] ++
         timerCode (u.pan n).timer ++ boostCode (u.pan n).boost) u t) ∧
  (∀ (s : State) (n : Slot) (lo hi settings : Byte), s.Listens .pl → s.Sound → s.safe = false → (s.pan n).state ≠ .free →
     let value : Option Nat := if wordFrom lo hi = 65535 then none else some (wordFrom lo hi)
     let p : Pan := { s.pan n with timer := value, autoHold := settings.getLsbD 0, holdOnLift := settings.getLsbD 1 }
     let written : State := (s.setPan n p).setPartSecond n 0
     let completed : State := (written.setPan n (if p.autoHold then { p with timer := none, held := true }
       else { p with timer := none, level := 0, source := .panel, boost := none })).postEvent
         ⟨.timerDone, s.now % 65536, some ⟨n, some (s.pan n).tag⟩, none, none, none⟩
     ∃ s1 u t, exec (.setTimer .pl [byteOf n.val, byteOf (s.pan n).tag.val, lo, hi, settings]) s = .next t ∧
       (¬ (s.heating n = true ∧ value = some 0) → s1 = written) ∧
       (s.heating n = true → value = some 0 → Reported (s.legHolders (s.panId n)) completed s1) ∧
       Settled s s1 u ∧
       Answered .pl 0x81 ([byteOf n.val, byteOf (u.pan n).tag.val, byteOf (u.pan n).level.val, byteOf (u.pan n).source.code] ++
         timerCode (u.pan n).timer ++ boostCode (u.pan n).boost) u t) ∧
  ∀ (s : State) (n : Slot), s.Listens .pl → s.safe = false → (s.pan n).state ≠ .free →
    let tag := (s.pan n).tag
    let taken : Instr → Flow → Prop := fun c f => ∃ t, exec c s = .next t ∧
      (∀ u, f = .ok u → Answered .pl 0x81 ([byteOf n.val, byteOf tag.val, byteOf (u.pan n).level.val,
        byteOf (u.pan n).source.code] ++ timerCode (u.pan n).timer ++ boostCode (u.pan n).boost) u t) ∧
      ∀ v, f = .safe v → v.safe = true ∧ v.pan n = Pan.freed tag ∧
        Answered .pl 0x81 [byteOf n.val, byteOf tag.val, 0, 0, 0xFF, 0xFF, 0xFF, 0xFF] v t
    (∀ level : Fin 14, taken (.setLevel .pl [byteOf n.val, byteOf tag.val, byteOf level.val])
      ((editPan n (fun p => { p with
        level := level, source := .panel, boost := if level = 13 then some (s.params.boostDuration * 1000) else none }) s).andThen
      fun x => (if (s.pan n).level < level then Flow.ok { x with priority := n :: x.priority.erase n }
        else if level < (s.pan n).level then reportAll (x.legHolders (x.panId n)) x else Flow.ok x).andThen (settle s))) ∧
    ∀ lo hi settings : Byte, taken (.setTimer .pl [byteOf n.val, byteOf tag.val, lo, hi, settings])
      ((rewritePan n (fun p => { p with
        timer := if wordFrom lo hi = 65535 then none else some (wordFrom lo hi)
        autoHold := settings.getLsbD 0, holdOnLift := settings.getLsbD 1 }) s).andThen
      fun x => (completeIfDue n (x.setPartSecond n 0)).andThen (settle s))

/-- R92, R93: HOLD and RESUME set and clear HELD on the PRESENT and LOST slots named; HOLD reports each order with a leg
for a pan that was heating-eligible, and RESUME brings the slots to the front of the Priority List. Where a check fails
meanwhile the rest is not done, and the answer is DONE with the HELD set that SAFE has left, which is empty. That RESUME
clears the HELD flags in slot order, which shows at a bad record or an armed mark, is the model's choice: assumption log 42. -/
def Obligations.HoldAndResume : Prop :=
  ∀ (s : State) (mask : Byte), s.Listens .pl → s.safe = false →
    let named := allSlots.filter fun n => mask.getLsbD n.val && decide ((s.pan n).state ≠ .free)
    let marked : Bool → State := fun held => { s with
      pans := Vector.ofFn fun n => if n ∈ named then { s.pan n with held := held } else s.pan n }
    let heldSet : State → Byte := fun u => maskOf ((allSlots.filter fun n => (u.pan n).held).map (·.val))
    let each : Bool → Flow := fun held => forEach (fun n => editPan n fun p => { p with held := held }) named s
    let hold := (each true).andThen fun x =>
      (reportAll ((named.filter s.heating).flatMap fun n => s.legHolders (s.panId n)) x).andThen (settle s)
    let resume := (each false).andThen fun x =>
      settle s { x with priority := named ++ x.priority.filter fun n => decide (n ∉ named) }
    (∃ t, exec (.hold .pl [mask]) s = .next t ∧ Answered .pl 0x81 [heldSet hold.state] hold.state t) ∧
    (∃ t, exec (.resume .pl [mask]) s = .next t ∧ Answered .pl 0x81 [heldSet resume.state] resume.state t) ∧
    (∀ v, hold = .safe v ∨ resume = .safe v → v.safe = true ∧ heldSet v = 0) ∧
    (s.Sound → ∃ s1 u t, exec (.hold .pl [mask]) s = .next t ∧
      Reported ((named.filter s.heating).flatMap fun n => s.legHolders (s.panId n)) (marked true) s1 ∧
      Settled s s1 u ∧ Answered .pl 0x81 [heldSet u] u t) ∧
    (s.Sound → ∃ u t, exec (.resume .pl [mask]) s = .next t ∧
      Settled s { marked false with priority := named ++ s.priority.filter fun n => decide (n ∉ named) } u ∧
      Answered .pl 0x81 [heldSet u] u t)

/-- R94: STOP ALL holds every pan, then stops every generator in service, in generator-number order, and no other; the
re-plan pass follows the stops, if one was made (assumption log 29). It is answered DONE also where a check fails
meanwhile, the rest not done then. -/
def Obligations.StopAllStops : Prop :=
  (∀ s : State, s.Listens .pl → s.safe = false →
    let stops := allGens.filter fun g => (s.desk g).state.inService
    let f := (forEach (fun n => editPan n fun p => { p with held := true })
      (allSlots.filter fun n => decide ((s.pan n).state ≠ .free)) s).andThen fun x =>
        (forEach (fun g => stopGen g .stopAll) stops x).andThen fun x =>
          (if stops = [] then Flow.ok x else replanPass x).andThen (settle s)
    (∃ t, exec (.stopAll .pl []) s = .next t ∧ Answered .pl 0x81 [] f.state t) ∧ ∀ v, f = .safe v → v.safe = true) ∧
  ∀ s : State, s.Listens .pl → s.Sound → s.safe = false → BudgetOk s →
    let heldAll : State := { s with
      pans := Vector.ofFn fun n => if (s.pan n).state ≠ .free then { s.pan n with held := true } else s.pan n }
    let stops := allGens.filter fun g => (s.desk g).state.inService
    ∃ s1 s2 u t, exec (.stopAll .pl []) s = .next t ∧ Answered .pl 0x81 [] u t ∧ u.Sound ∧ Undisturbed s u ∧
      stops.foldl (fun (f : Flow) g => f.andThen (stopGen g .stopAll)) (Flow.ok heldAll) = .ok s1 ∧
      (stops ≠ [] → replanPass s1 = .ok s2) ∧ (stops = [] → s2 = s1) ∧ Settled s s2 u ∧
      (∀ n, (s.pan n).state ≠ .free → (u.pan n).held = true) ∧ (∀ n, (s.pan n).state = .free → (u.pan n).held = (s.pan n).held) ∧
      (∀ n, (u.pan n).level = (s.pan n).level ∧ (u.pan n).footprint = (s.pan n).footprint) ∧ u.priority = s.priority ∧
      (∀ g, (s.desk g).state.inService = true → u.desk g = { s.desk g with
        state := .stopped, desk := .empty, repeats := 0, order := none, lease := none, yield := none, collection := none,
        hold := some 250, holdEnd := .joined } ∧ u.alloc g = { s.alloc g with memory := [] }) ∧
      (∀ g, (s.desk g).state.inService = false → u.desk g = s.desk g ∧ u.alloc g = s.alloc g) ∧
      (∀ p, (u.account p).load = 0 ∧ (u.account p).shed = none)

/-- R103, R106: which coils are excluded. SET WINDOW's tests, the six fields it writes, and its reports on the orders with a
coil of a leg that becomes excluded; it applies no preset and changes no footprint. It is answered DONE also where a check
fails meanwhile. That its DONE carries the window number before the six fields,
seven bytes in all, is deduced: assumption log 37. -/
def Obligations.SetWindowPlaces : Prop :=
  (∀ (s : State) (c : CoilNo), s.excluded c = true ↔ ∃ w, (s.window w).mode = .exclude ∧
    (s.window w).colBase ≤ column c ∧ column c ≤ (s.window w).colLimit ∧
    (s.window w).rowBase ≤ row c ∧ row c ≤ (s.window w).rowLimit) ∧
  (∀ r : Coil, r.state.inLeg = true ↔ (∃ p n, r.state = .driven p n) ∨ ∃ p n d, r.state = .transfer p n d) ∧
  ∀ (s : State) (a mode cb cl rb rl preset : Byte), s.Listens .pl →
    let body := [a, mode, cb, cl, rb, rl, preset]
    (s.safe = true → Refuses (.setWindow .pl body) .pl 0x07 s) ∧
    (s.safe = false → (3 < a.toNat ∨ 2 < mode.toNat ∨ 7 < cb.toNat ∨ 7 < cl.toNat ∨ 5 < rb.toNat ∨ 5 < rl.toNat ∨
      12 < preset.toNat) → Refuses (.setWindow .pl body) .pl 0x03 s) ∧
    ∀ (w : WindowNo) (m : WindowMode) (level : Fin 13), s.safe = false → a.toNat = w.val → mode = m.code →
      cb.toNat ≤ 7 → cl.toNat ≤ 7 → rb.toNat ≤ 5 → rl.toNat ≤ 5 → preset.toNat = level.val →
      let placed : State := s.setWindow w ⟨m, cb.toNat, cl.toNat, rb.toNat, rl.toNat, level⟩
      let robbed := (allCoils.filter fun c => !s.excluded c && placed.excluded c && (s.coil c).state.inLeg).map s.driverGen
      let u := (reportAll robbed placed).state
      (∃ t, exec (.setWindow .pl body) s = .next t ∧ Answered .pl 0x81 body u t) ∧ (s.Sound → Reported robbed placed u)

/-- R156, R157: ENABLE GENERATORS disables and enables the generators named; a generator that becomes DISABLED loses its
order and its desk, and its home coils go out of service; one evaluation follows when one became DISABLED. With no
generator to disable, an enabled one becomes ABSENT with the faults of its home coils cleared and nothing else changes.
What switchGens does to each generator named and to its coils is said by GeneratorsLeaveAndReturn. R186: the port of a
generator that becomes DISABLED leaves RECEIVING for IDLE; every other port is left as it is. The answer is DONE also where
a check fails meanwhile, the rest not done then. -/
def Obligations.EnableAndDisable : Prop :=
  (∀ (s : State) (e d : Byte), s.Listens .pl → s.safe = false → e.toNat < 16 → d.toNat < 16 → e &&& d = 0 →
    let f := (switchGens (maskGens e) (maskGens d) s).andThen fun x =>
      (if ∃ g : Gen, d.getLsbD g.val = true ∧ (s.desk g).state ≠ .disabled then evaluate x else Flow.ok x).andThen (settle s)
    (∃ t, exec (.enableGenerators .pl [e, d]) s = .next t ∧
      Answered .pl 0x81 (allGens.map fun g => (f.state.desk g).state.code) f.state t) ∧
    ∀ v, f = .safe v → v.safe = true) ∧
  ∀ (s : State) (e d : Byte), s.Listens .pl → s.Sound → s.safe = false → e.toNat < 16 → d.toNat < 16 → e &&& d = 0 →
    ∃ s1 s2 u t, exec (.enableGenerators .pl [e, d]) s = .next t ∧
      switchGens (maskGens e) (maskGens d) s = .ok s1 ∧ s1.Sound ∧ Unmoved s s1 ∧
      ((∃ g : Gen, d.getLsbD g.val = true ∧ (s.desk g).state ≠ .disabled) → evaluate s1 = .ok s2 ∧ Undisturbed s1 s2) ∧
      ((∀ g : Gen, d.getLsbD g.val = true → (s.desk g).state = .disabled) → s2 = s1) ∧
      Settled s s2 u ∧ Answered .pl 0x81 (allGens.map fun g => (u.desk g).state.code) u t ∧
      (∀ l, ((∃ g : Gen, l = .gl g ∧ d.getLsbD g.val = true ∧ (s.desk g).state ≠ .disabled) →
          (∃ bytes causes gap, (s.port l).rx = .receiving bytes causes gap) → u.port l = { s.port l with rx := .idle }) ∧
        (¬ ((∃ g : Gen, l = .gl g ∧ d.getLsbD g.val = true ∧ (s.desk g).state ≠ .disabled) ∧
          ∃ bytes causes gap, (s.port l).rx = .receiving bytes causes gap) → u.port l = s.port l)) ∧
      (∀ g : Gen, d.getLsbD g.val = true → (u.desk g).state = .disabled) ∧
      (∀ g : Gen, e.getLsbD g.val = true → (s.desk g).state = .disabled → (u.desk g).state = .absent) ∧
      (∀ g : Gen, d.getLsbD g.val = true → (s.desk g).state.inService = true ∨ (s.desk g).state = .stopped →
        u.desk g = { s.desk g with
          state := .disabled, desk := .empty, repeats := 0, order := none, lease := none,
          yield := none, collection := none, hold := none } ∧
        ∀ c, homeGen c = g → ((s1.coil c).state.isOff = true ∨ ∃ o n, (s1.coil c).state = .releasing o n true) ∧
          ((s.coil c).state.isOff = false → (∀ o n, (s.coil c).state ≠ .releasing o n true) → (s1.coil c).coverage = none)) ∧
      (d = 0 → s1 = { s with
        desks := Vector.ofFn fun g => if e.getLsbD g.val = true ∧ (s.desk g).state = .disabled
          then { s.desk g with state := .absent } else s.desk g
        coils := Vector.ofFn fun c => if e.getLsbD (homeGen c).val = true ∧ (s.desk (homeGen c)).state = .disabled
          then { s.coil c with fault := false } else s.coil c })

/-- R14 to R16, R61, R156, R157: the generators named are handled in generator-number order. One named for disable is left as
it is when DISABLED, becomes DISABLED with GENERATOR STOPPED when ABSENT, and otherwise is stopped with cause DISABLE, after
which its coils leave service; the partial message on its port goes first (assumption log 36). Its home coils become OFF, or
RELEASING and off pending in an order of their alternate, with NO DATA; their owners' footprints lose them, with PAN MOVED in
slot order where some coils are left (the order is the model's choice: log 43); its alternate-driven coils in no order start
home; then each order that lost a coil of a leg is reported (where these reports stand: log 18). One named for enable becomes
ABSENT, the faults of its home coils cleared. -/
def Obligations.GeneratorsLeaveAndReturn : Prop :=
  (∀ (s : State) (g : Gen), s.Sound →
    let home : Coil → Coil := fun r => match r.state with
      | .driven _ n => { r with coverage := none, state := .releasing none n true }
      | .transfer _ n _ => { r with coverage := none, state := .releasing none n true }
      | .releasing _ n _ => { r with coverage := none, state := .releasing none n true }
      | .off _ => r
      | _ => { r with driver := .home, coverage := none, state := .off (returnLeft r) }
    let visitor : Coil → Coil := fun r => match r.driver, r.state with
      | .alternate, .free => { r with driver := .home, state := .switching none 15 }
      | .alternate, .claimed p => { r with driver := .home, state := .switching (some p) 15 }
      | _, _ => r
    let kept : Slot → List CoilNo := fun n =>
      (s.pan n).footprint.filter fun c => decide (¬ (homeGen c = g ∧ (s.coil c).state.owner = some (s.panId n)))
    let told : State := allSlots.foldl (fun x n =>
      if (s.pan n).state = .present ∧ kept n ≠ [] ∧ kept n ≠ (s.pan n).footprint then
        x.postEvent ⟨.panMoved, s.now % 65536, some ⟨n, some (s.pan n).tag⟩, none, none, none⟩
      else x) s
    let left : State := { s with
      coils := Vector.ofFn fun c => if homeGen c = g then home (s.coil c)
        else if altGen c = some g then visitor (s.coil c) else s.coil c
      pans := Vector.ofFn fun n => { s.pan n with footprint := kept n }
      events := told.events, eventsLost := told.eventsLost }
    let robbed := (allCoils.filter fun c => decide (homeGen c = g) && (s.coil c).state.inLeg).map s.driverGen
    ∃ t, coilsLeave g s = .ok t ∧ Reported robbed left t) ∧
  (∀ (s : State) (g : Gen),
    let quiet : State := match (s.port (.gl g)).rx with
      | .receiving _ _ _ => s.setPort (.gl g) { s.port (.gl g) with rx := .idle }
      | _ => s
    ((s.desk g).state = .disabled → disableGen g s = .ok s) ∧
    ((s.desk g).state = .absent → disableGen g s = .ok ((quiet.setDesk g { s.desk g with state := .disabled }).postEvent
      ⟨.generatorStopped, s.now % 65536, none, some g, none, some (.stop .disable)⟩)) ∧
    ((s.desk g).state ≠ .disabled → (s.desk g).state ≠ .absent →
      disableGen g s = (stopGen g .disable quiet).andThen (coilsLeave g))) ∧
  (∀ (s : State) (g : Gen), s.Sound →
    ((s.desk g).state ≠ .disabled → enableGen g s = .ok s) ∧
    ((s.desk g).state = .disabled → enableGen g s = .ok { s with
      desks := s.desks.set g { s.desk g with state := .absent }
      coils := Vector.ofFn fun c => if homeGen c = g then { s.coil c with fault := false } else s.coil c })) ∧
  ∀ (enable disable : List Gen) (s : State),
    let handle : Gen → State → Flow := fun g x =>
      if g ∈ disable then disableGen g x else if g ∈ enable then enableGen g x else .ok x
    switchGens enable disable s = (((handle 0 s).andThen (handle 1)).andThen (handle 2)).andThen (handle 3)

/-- R21, R22, R88, R89, R103, R111, R112, R142, R143, R146, R156, R162: the refusals of requests outside SAFE. A refused
request changes nothing. That a FETCH is refused by its generator's state ahead of the length of its body is deduced
(assumption log 22), and so is that NO PAN and STALE are answered without a check of the record's code (log 7). -/
def Obligations.RequestsAreRefused : Prop :=
  ∀ (s : State) (g : Gen) (body : List Byte), s.safe = false → bodyFits body = true →
    (s.Listens .pl →
      (∀ a b c : Byte, 7 < a.toNat ∨ 15 < b.toNat ∨ 13 < c.toNat → Refuses (.setLevel .pl [a, b, c]) .pl 0x03 s) ∧
      (body.length ≠ 3 → Refuses (.setLevel .pl body) .pl 0x03 s) ∧
      (∀ a b lo hi x : Byte, 7 < a.toNat ∨ 15 < b.toNat → Refuses (.setTimer .pl [a, b, lo, hi, x]) .pl 0x03 s) ∧
      (body.length ≠ 5 → Refuses (.setTimer .pl body) .pl 0x03 s) ∧
      (∀ (n : Slot) (tag : Tag) (level : Fin 14) (lo hi x : Byte),
        ((s.pan n).state = .free →
          Refuses (.setLevel .pl [byteOf n.val, byteOf tag.val, byteOf level.val]) .pl 0x04 s ∧
          Refuses (.setTimer .pl [byteOf n.val, byteOf tag.val, lo, hi, x]) .pl 0x04 s) ∧
        ((s.pan n).state ≠ .free → (s.pan n).tag ≠ tag →
          Refuses (.setLevel .pl [byteOf n.val, byteOf tag.val, byteOf level.val]) .pl 0x05 s ∧
          Refuses (.setTimer .pl [byteOf n.val, byteOf tag.val, lo, hi, x]) .pl 0x05 s)) ∧
      (body.length ≠ 1 → Refuses (.hold .pl body) .pl 0x03 s ∧ Refuses (.resume .pl body) .pl 0x03 s ∧
        Refuses (.permit .pl body) .pl 0x03 s) ∧
      (∀ p : Byte, p.toNat = 0 ∨ 60 < p.toNat → Refuses (.permit .pl [p]) .pl 0x03 s) ∧
      (body.length ≠ 7 → Refuses (.setWindow .pl body) .pl 0x03 s) ∧
      (body.length ≠ 2 → Refuses (.enableGenerators .pl body) .pl 0x03 s) ∧
      (∀ e d : Byte, 16 ≤ e.toNat ∨ 16 ≤ d.toNat ∨ e &&& d ≠ 0 → Refuses (.enableGenerators .pl [e, d]) .pl 0x03 s)) ∧
    (s.Listens .sl →
      (∀ a lo hi dlo dhi : Byte, (a ≠ 1 ∧ a ≠ 2) ∨ 7400 < wordFrom lo hi ∨ wordFrom lo hi % 10 ≠ 0 →
        Refuses (.setCap .sl [a, lo, hi]) .sl 0x03 s ∧ Refuses (.shed .sl [a, lo, hi, dlo, dhi]) .sl 0x03 s) ∧
      (∀ a lo hi dlo dhi : Byte, wordFrom dlo dhi < 100 ∨ 10000 < wordFrom dlo dhi →
        Refuses (.shed .sl [a, lo, hi, dlo, dhi]) .sl 0x03 s) ∧
      (body.length ≠ 3 → Refuses (.setCap .sl body) .sl 0x03 s) ∧ (body.length ≠ 5 → Refuses (.shed .sl body) .sl 0x03 s)) ∧
    (s.Listens (.gl g) →
      ((s.desk g).state = .disabled → Refuses (.hello (.gl g) []) (.gl g) 0x0A s ∧
        Refuses (.sweep (.gl g) body) (.gl g) 0x0A s ∧ Refuses (.fetch (.gl g) body) (.gl g) 0x0A s) ∧
      ((s.desk g).state = .absent →
        Refuses (.sweep (.gl g) body) (.gl g) 0x08 s ∧ Refuses (.fetch (.gl g) body) (.gl g) 0x08 s) ∧
      ((s.desk g).state = .stopped → Refuses (.fetch (.gl g) body) (.gl g) 0x09 s) ∧
      ((s.desk g).state ≠ .disabled → (s.desk g).state ≠ .absent →
        (body = [] ∨ (∃ n rest, body = n :: rest ∧ (n.toNat = 0 ∨ 24 < n.toNat ∨ rest.length ≠ 3 * n.toNat)) ∨
          (∃ n front a b c back, body = n :: (front ++ a :: b :: c :: back) ∧ front.length % 3 = 0 ∧
            (47 < a.toNat ∨ 15 < b.toNat ∨ c.toNat % 4 = 3))) →
        Refuses (.sweep (.gl g) body) (.gl g) 0x03 s) ∧
      ((s.desk g).state.inService = true →
        (body.length ≠ 1 → Refuses (.fetch (.gl g) body) (.gl g) 0x03 s) ∧
        ∀ n : Byte, s.issuedOrder g = none → n ≠ 0 → n ≠ (s.desk g).lastConfirmed →
          Refuses (.fetch (.gl g) [n]) (.gl g) 0x0B s))

/-! ## The requests of a generator -/

/-- R16, R142, R159: HELLO releases the order, empties the desk, brings the home coils back, joins the generator and posts
GENERATOR JOINED; a re-plan pass follows unless the generator was in service. Where a check fails meanwhile the rest is not
done, and the HELLO is refused with SAFE. That the coils go in coil-number order, which shows at a bad record or an armed
mark, is the model's choice (assumption log 40); that a coil of the order is updated by its release and again here is deduced
(log 24). -/
def Obligations.HelloJoins : Prop :=
  ∀ (s : State) (g : Gen), s.Listens (.gl g) → s.safe = false → (s.desk g).state ≠ .disabled →
    let back : Coil → Coil := fun r => match r.state with
      | .off none => { r with fault := false, coverage := none, state := .free }
      | .off (some left) => { r with fault := false, coverage := none, state := .switching none left }
      | .releasing o n _ => { r with fault := false, state := .releasing o n false }
      | _ => { r with fault := false }
    let fields : List Byte := [byteOf g.val, phaseCode (s.genPhase g)] ++ wordOf s.params.orderLease ++
      [byteOf s.params.yieldTimeout]
    let emptied : State → State := fun x =>
      let w : State := if (s.desk g).order.isSome then x.dropOrderPosting g else x
      { w with
        desks := w.desks.set g { s.desk g with
          desk := .empty, repeats := 0, order := none,
          lastConfirmed := 0, lease := none, yield := none, collection := none, hold := none }
        allocs := w.allocs.set g { s.alloc g with memory := [] } }
    let joined : State → State := fun x => (x.setDesk g { x.desk g with state := .joined }).postEvent
      ⟨.generatorJoined, s.now % 65536, none, some g, none, none⟩
    let f := (releaseOrder g false s).andThen fun x =>
      (forEach (fun c => editCoil c back) (allCoils.filter fun c => decide (homeGen c = g)) (emptied x)).andThen fun x =>
        (if (s.desk g).state.inService then Flow.ok (joined x) else replanPass (joined x)).andThen (settle s)
    (∀ u, f = .ok u → ∃ t, exec (.hello (.gl g) []) s = .next t ∧ Answered (.gl g) 0x81 fields u t) ∧
    (∀ v, f = .safe v → v.safe = true ∧ ∃ t, exec (.hello (.gl g) []) s = .next t ∧ Answered (.gl g) 0x84 [0x07] v t) ∧
    (s.Sound → ∃ s1 s2 s3 u, releaseOrder g false s = .ok s1 ∧
      (let w := emptied s1
       s2 = joined { w with coils := Vector.ofFn fun c => if homeGen c = g then back (w.coil c) else w.coil c }) ∧
      ((s.desk g).state.inService = false → replanPass s2 = .ok s3 ∧ OrderWork s2 s3) ∧
      ((s.desk g).state.inService = true → s3 = s2) ∧ Settled s s3 u ∧ f = .ok u ∧ u.desk g = s2.desk g)

/-- R23 to R26, R28: the entries of a SWEEP are applied one after another, each that passes its tests, the others counted as
ignored; the orders with a coil of a leg that became unfit are reported; one evaluation follows. At a check that fails the
rest is not done, the entries not yet applied count as ignored, and the answer is DONE all the same. -/
def Obligations.SweepApplies : Prop :=
  ∀ (s : State) (g : Gen) (body : List Byte) (entries : List SweepEntry), s.Listens (.gl g) → s.safe = false →
    bodyFits body = true → (s.desk g).state ≠ .disabled → (s.desk g).state ≠ .absent → sweepFrom body = some entries →
    let passes : State → SweepEntry → Bool := fun x e =>
      reaches g e.coil && decide (x.driverGen e.coil = g) &&
        (match (x.coil e.coil).state with
          | .off _ => false
          | .switching _ _ => false
          | .releasing _ _ offPending => !offPending
          | _ => true)
    let read : SweepEntry → Coil → Coil := fun e r => { r with
      coverage := some e.coverage
      hot := match e.temp with
        | .normal => false
        | .warm => r.hot
        | .hot => true
      fault := r.fault || e.fault }
    let apply : Flow × Nat × List Gen → SweepEntry → Flow × Nat × List Gen := fun (f, ignored, affected) e =>
      match f with
      | .safe v => (.safe v, ignored + 1, affected)
      | .ok x =>
        let r := x.coil e.coil
        let q := read e r
        if r.codeOk = false then (.safe (enterSafe (.coil e.coil) x), ignored + 1, affected)
        else if passes x e then
          let y : State := { x with
            coils := x.coils.set e.coil { q with codeOk := !x.marks.coilMap }
            marks := { x.marks with coilMap := false } }
          (.ok (if !r.fault && q.fault then y.postEvent ⟨.coilFault, x.now % 65536, none, some g, some e.coil, none⟩ else y),
            ignored,
            affected ++ if r.state.inLeg && ((!r.hot && q.hot) || (!r.fault && q.fault)) then [x.driverGen e.coil] else [])
        else (.ok x, ignored + 1, affected)
    let applied := entries.foldl apply (.ok s, 0, [])
    let f := applied.1.andThen fun x => (reportAll applied.2.2 x).andThen fun x => (evaluate x).andThen (settle s)
    (∃ t, exec (.sweep (.gl g) body) s = .next t ∧ Answered (.gl g) 0x81 [byteOf applied.2.1] f.state t) ∧
    (∀ v, f = .safe v → v.safe = true) ∧
    (s.Sound → ∃ x s1 s2 u, applied.1 = .ok x ∧ Reported applied.2.2 x s1 ∧ evaluate s1 = .ok s2 ∧
      Undisturbed s1 s2 ∧ Settled s s2 u ∧ f = .ok u)

/-- R143, R147, R159: a FETCH that finds the desk EMPTY and the wait test passing builds and delivers at once; one that finds
it COMPLETE delivers the BUILT order, whatever it named. Where a check fails, in the build or of the order to be delivered,
the FETCH is refused with SAFE. R191: the bytes of an order and of its legs. -/
def Obligations.FetchDelivers : Prop :=
  (∀ o : Order, o.bytes = [o.number, BitVec.ofNat 8 o.legs.length] ++ o.legs.flatMap Leg.bytes) ∧
  (∀ l : Leg, ∃ sync pan : Byte,
    l.bytes = [sync, pan, BitVec.ofNat 8 l.power, BitVec.ofNat 8 (l.power / 256), BitVec.ofNat 8 l.coils.length] ++
      l.coils.map (fun c => BitVec.ofNat 8 c.val) ∧
    sync.getLsbD 0 = decide (l.inverter = .b) ∧ (∀ i, 1 ≤ i → i ≤ 3 → sync.getLsbD i = false) ∧
    sync.toNat / 16 % 8 = l.sync.val ∧ sync.getLsbD 7 = l.split ∧
    pan.toNat % 16 = l.pan.tag.val ∧ pan.toNat / 16 % 8 = l.pan.slot.val ∧ pan.getLsbD 7 = false) ∧
  (∀ (s : State) (g : Gen) (n : Byte), s.Listens (.gl g) → s.safe = false → (s.desk g).state.inService = true →
    s.issuedOrder g = none → (n = 0 ∨ n = (s.desk g).lastConfirmed) →
    let refusedAt : State → Prop := fun v => ∃ t, exec (.fetch (.gl g) [n]) s = .next t ∧ Answered (.gl g) 0x84 [0x07] v t
    ((s.desk g).desk = .empty → s.waitBlocked g = false →
      (∀ v, buildOrder g s = .safe v → v.safe = true ∧ refusedAt v) ∧
      ∀ s1 o, buildOrder g s = .ok s1 → (s1.desk g).order = some o → o.codeOk = false → refusedAt (enterSafe (.order g) s1)) ∧
    ∀ entry o, (s.desk g).desk = .complete entry → (s.desk g).order = some o → o.codeOk = false →
      refusedAt (enterSafe (.order g) s)) ∧
  ∀ (s : State) (g : Gen) (n : Byte), s.Listens (.gl g) → s.Sound → s.safe = false → (s.desk g).state.inService = true →
    s.issuedOrder g = none → (n = 0 ∨ n = (s.desk g).lastConfirmed) →
    let issued : Order → Desk → Desk := fun o d => { d with
      state := .ordered, desk := .empty, repeats := 0, order := some { o with state := .issued s.now },
      lease := some s.params.orderLease, collection := none }
    ((s.desk g).desk = .empty → s.waitBlocked g = false →
      ∃ s1 o t, exec (.fetch (.gl g) [n]) s = .next t ∧ buildOrder g s = .ok s1 ∧ (s1.desk g).order = some o ∧
        Answered (.gl g) 0x83 o.bytes (s1.setDesk g (issued o (s1.desk g))) t) ∧
    (∀ entry o, (s.desk g).desk = .complete entry → (s.desk g).order = some o →
      ∃ t, exec (.fetch (.gl g) [n]) s = .next t ∧ Answered (.gl g) 0x83 o.bytes (s.setDesk g (issued o (s.desk g))) t)

/-- R144 to R146, R159: a FETCH that names the ISSUED order confirms it: the order is released with its energy and its charge, the
inverter memory takes its legs, and the FETCH then goes on to delivery from JOINED. One that names another number stops
the generator. Where a check fails meanwhile the FETCH is refused with SAFE. -/
def Obligations.FetchConfirmsOrStops : Prop :=
  (∀ (s : State) (g : Gen) (o : Order) (n : Byte), s.Listens (.gl g) → s.safe = false → (s.desk g).state.inService = true →
     s.issuedOrder g = some o →
     let answered : Byte → State → Prop := fun reason u => ∃ t, exec (.fetch (.gl g) [n]) s = .next t ∧
       Answered (.gl g) 0x84 [reason] u t
     (n = o.number → ∀ v, releaseOrder g false s = .safe v → v.safe = true ∧ answered 0x07 v) ∧
     (o.codeOk = false → releaseOrder g false s = .safe (enterSafe (.order g) s)) ∧
     (n ≠ o.number →
       let f := (stopGen g .orderMismatch s).andThen fun x => (replanPass x).andThen (settle s)
       (∀ u, f = .ok u → answered 0x0B u) ∧ ∀ v, f = .safe v → v.safe = true ∧ answered 0x07 v)) ∧
  (∀ (s s1 : State) (g : Gen) (o : Order), s.Listens (.gl g) → s.safe = false → (s.desk g).state.inService = true →
     s.issuedOrder g = some o → releaseOrder g false s = .ok s1 →
       let w := s1.dropOrderPosting g
       let confirmed : State := { w with
         allocs := w.allocs.set g { s.alloc g with memory := o.legs.map fun l => ⟨l.pan, l.inverter⟩ }
         desks := w.desks.set g { s.desk g with
           state := .joined, order := none, lease := none, yield := none,
           lastConfirmed := o.number } }
       exec (.fetch (.gl g) [o.number]) s = exec (.fetch (.gl g) [o.number]) confirmed ∧ confirmed.issuedOrder g = none ∧
         (s.Sound → confirmed.Sound)) ∧
  (∀ (s : State) (g : Gen), s.Sound → ∃ s1, releaseOrder g false s = .ok s1) ∧
  (∀ (s : State) (g : Gen) (o : Order) (n : Byte), s.Listens (.gl g) → s.Sound → s.safe = false →
     (s.desk g).state.inService = true → s.issuedOrder g = some o → n ≠ o.number →
     ∃ s1 s2 u t, exec (.fetch (.gl g) [n]) s = .next t ∧ stopGen g .orderMismatch s = .ok s1 ∧ replanPass s1 = .ok s2 ∧
       Settled s s2 u ∧ Answered (.gl g) 0x84 [0x0B] u t ∧
       u.desk g = { s.desk g with
         state := .stopped, desk := .empty, repeats := 0, order := none, lease := none,
         yield := none, collection := none, hold := some 250, holdEnd := .joined } ∧
       u.alloc g = { s.alloc g with memory := [] })

/-- R74, R75, R124, R147, R148: the wait test fails exactly when a heating-eligible pan owns a coil that is TRANSFER with G
as its planned driver, or SWITCHING with G as its driver. A FETCH that has to wait enters the desk, a repeat counts, a
replacement starts afresh, and a count above the repeat limit starves the fetch. That the wait test verifies no record is
deduced (assumption log 7). -/
def Obligations.FetchWaitsAndStarves : Prop :=
  (∀ (s : State) (g : Gen), s.waitBlocked g = true ↔ ∃ (c : CoilNo) (p : PanId),
    ((∃ n d, (s.coil c).state = .transfer p n d ∧ driverAt c d = g) ∨
      ∃ left, (s.coil c).state = .switching (some p) left ∧ driverAt c (s.coil c).driver = g) ∧
    (s.pan p.slot).tag = p.tag ∧ s.heating p.slot = true) ∧
  ∀ (s : State) (g : Gen) (n : Byte), s.Listens (.gl g) → s.safe = false → (s.desk g).state.inService = true →
    s.issuedOrder g = none → (n = 0 ∨ n = (s.desk g).lastConfirmed) →
    let waits : Nat → Prop := fun count => ∃ t, exec (.fetch (.gl g) [n]) s = .next t ∧
      Answered (.gl g) 0x82 [byteOf count, byteOf s.params.repeatLimit]
        (s.setDesk g { s.desk g with desk := .waiting n, repeats := count }) t
    ((s.desk g).desk = .empty → s.waitBlocked g = true → waits 1) ∧
    (∀ entry, (s.desk g).desk = .waiting entry → n ≠ entry → waits 1) ∧
    ((s.desk g).desk = .waiting n → (s.desk g).repeats + 1 ≤ s.params.repeatLimit → waits ((s.desk g).repeats + 1)) ∧
    ((s.desk g).desk = .waiting n → s.params.repeatLimit < (s.desk g).repeats + 1 →
      ∃ t, exec (.fetch (.gl g) [n]) s = .next t ∧
        Answered (.gl g) 0x84 [0x0C] ((s.setDesk g { s.desk g with desk := .empty, repeats := 0 }).postEvent
          ⟨.generatorStarved, s.now % 65536, none, some g, none, none⟩) t)

/-! ## The supply's requests -/

/-- R111 to R113, R115: SET CAP and SHED move the target; SET CAP takes the configured deadline and is always answered
DONE, SHED is answered WAIT while its shed is pending, and each with the account as it then stands, also where a check fails
meanwhile. -/
def Obligations.SetCapAndShedMoveTheTarget : Prop :=
  ∀ (s : State) (p : Phase) (lo hi dlo dhi : Byte), s.Listens .sl → s.safe = false →
    wordFrom lo hi ≤ 7400 → wordFrom lo hi % 10 = 0 →
    let fields : State → List Byte := fun u =>
      wordOf (u.account p).target ++ wordOf (u.account p).committed ++ wordOf (u.account p).load ++
        (match (u.account p).shed with
        | some x => 1 :: wordOf x.remaining
        | none => [0, 0, 0])
    (∃ u t, exec (.setCap .sl [phaseCode p, lo, hi]) s = .next t ∧ Answered .sl 0x81 (fields u) u t ∧
      (s.Sound → BudgetOk s → TargetMoved p (wordFrom lo hi) s.params.shedDeadline s u)) ∧
    (100 ≤ wordFrom dlo dhi → wordFrom dlo dhi ≤ 10000 →
      ∃ u t, exec (.shed .sl [phaseCode p, lo, hi, dlo, dhi]) s = .next t ∧
        Answered .sl (if (u.account p).shed.isSome then 0x82 else 0x81) (fields u) u t ∧
        (s.Sound → BudgetOk s → TargetMoved p (wordFrom lo hi) (wordFrom dlo dhi) s u))

/-! ## Expiries -/

/-- R13: at the end of a relay switch the coil is CLAIMED or FREE, then returns to rest when its alternate is out, or
follows its owner's plan; an OFF coil's relay comes to rest. -/
def Obligations.SwitchEnds : Prop :=
  ∀ (s : State) (c : CoilNo), s.rstLow = false → s.Sound → hasRelay c = true →
    let r := s.coil c
    let strayed : Prop := r.driver = .alternate ∧
      ∃ g, altGen c = some g ∧ ((s.desk g).state = .disabled ∨ (s.desk g).state = .absent)
    let ends : Coil → Prop := fun q => ∃ u, exec (.switchEnd c) s = .next u ∧ Settled s (s.setCoil c q) u
    (∀ owner, r.state = .switching owner 0 → strayed → ends { r with driver := .home, state := .switching owner 15 }) ∧
    (r.state = .switching none 0 → ¬ strayed → ends { r with state := .free }) ∧
    (∀ o, r.state = .switching (some o) 0 → ¬ strayed →
      (∀ plan, (s.pan o.slot).plan = some plan → (s.pan o.slot).tag = o.tag → plannedPosition c plan ≠ r.driver →
        ends { r with driver := plannedPosition c plan, state := .switching (some o) 15 }) ∧
      ((∀ plan, (s.pan o.slot).plan = some plan → (s.pan o.slot).tag = o.tag → plannedPosition c plan = r.driver) →
        ends { r with state := .claimed o })) ∧
    (r.state = .off (some 0) → ends { r with state := .off none })

/-- R60, R95 to R97: a LOST pan whose lost remaining runs out is gone; a boost that runs out ends at level 12 and is reported; a
second of a pan timer is counted down, and a timer that comes to 0, or stands at 0, completes. TIMER_DONE with seconds
left is what it would be a second later: assumption log 4. -/
def Obligations.PanExpiries : Prop :=
  (∀ (s : State) (n : Slot), s.rstLow = false → s.Sound →
     ((s.pan n).state = .lost → (s.pan n).lostRemaining = some 0 →
       ∃ u, exec (.lostTimeExpiry n) s = .next u ∧
         Settled s ((({ s with priority := s.priority.erase n }.setPan n (Pan.freed (s.pan n).tag)).setPartSecond n 0).postEvent
           ⟨.panGone, s.now % 65536, some ⟨n, some (s.pan n).tag⟩, none, none, none⟩) u) ∧
     (s.heating n = true → (s.pan n).boost = some 0 →
       ∃ u, exec (.boostEnded n) s = .next u ∧
         Reported (s.legHolders (s.panId n)) ((s.setPan n { s.pan n with level := 12, boost := none }).postEvent
           ⟨.boostEnded, s.now % 65536, some ⟨n, some (s.pan n).tag⟩, none, none, none⟩) u)) ∧
  (∀ (s : State) (n : Slot), s.rstLow = false → s.Sound → s.heating n = true →
     let p := s.pan n
     let completed : State → State := fun x => (x.setPan n (if p.autoHold then { p with timer := none, held := true }
       else { p with timer := none, level := 0, source := .panel, boost := none })).postEvent
         ⟨.timerDone, s.now % 65536, some ⟨n, some p.tag⟩, none, none, none⟩
     (∀ k, p.timer = some (k + 2) → s.partSecond n = 1000 →
       ∃ u, exec (.partSecondElapsed n) s = .next u ∧
         Settled s ((s.setPan n { p with timer := some (k + 1) }).setPartSecond n 0) u) ∧
     (p.timer = some 1 → s.partSecond n = 1000 →
       ∃ s1 u, exec (.partSecondElapsed n) s = .next u ∧
         Reported (s.legHolders (s.panId n)) (completed (s.setPartSecond n 0)) s1 ∧ Settled s s1 u) ∧
     (p.timer = some 0 →
       ∃ s1 u, exec (.timerDone n) s = .next u ∧ Reported (s.legHolders (s.panId n)) (completed s) s1 ∧ Settled s s1 u) ∧
     (∀ k, p.timer = some (k + 1) → s.partSecond n ≤ 1000 →
       ∃ u, exec (.timerDone n) s = exec (.timerDone n) u ∧ u.Sound ∧ u.now = s.now + (1000 - s.partSecond n) ∧
         (u.pan n).timer = some k ∧ u.partSecond n = 0 ∧ u.heating n = true))

/-- R117: at the deadline of a shed the generators of the phase with a charge are stopped, the largest charge first and
the higher number among equals, until the shed has ended; a re-plan pass follows. -/
def Obligations.ShedDeadlineStops : Prop :=
  ∀ (s : State) (p : Phase) (x : ShedTimes), s.rstLow = false → s.Sound → BudgetOk s → (s.account p).shed = some x →
    x.remaining = 0 →
    ∃ (gs : List Gen) (k : Nat) (s1 s2 u : State), exec (.shedDeadlineExpiry p) s = .next u ∧
      (∀ g, g ∈ gs ↔ s.genPhase g = p ∧ s.charge g ≠ 0) ∧
      gs.Pairwise (fun a b => s.charge b < s.charge a ∨ (s.charge a = s.charge b ∧ b < a)) ∧
      forEach (fun g => stopGen g .shed) (gs.take k) s = .ok s1 ∧
      (∀ j, j < k → ∃ y, forEach (fun g => stopGen g .shed) (gs.take j) s = .ok y ∧ (y.account p).shed.isSome = true) ∧
      (s1.account p).shed = none ∧ (s1.account p).committed = (s1.account p).target ∧
      replanPass s1 = .ok s2 ∧ Settled s s2 u ∧ (∀ g, g ∈ gs.take k → (u.desk g).state = .stopped ∧ (u.desk g).order = none)

/-- R151, R152: the end of a lease asks an ORDERED generator to yield and leaves a YIELDING one; the end of a yield timer
stops a YIELDING generator, and a re-plan pass follows. That the end of a lease does not verify the order's code is
deduced (assumption log 27). -/
def Obligations.LeaseAndYieldRunOut : Prop :=
  ∀ (s : State) (g : Gen), s.rstLow = false →
    ((s.desk g).lease = some 0 → (s.issuedOrder g).isSome = true → (s.desk g).state = .ordered →
      exec (.leaseExpiry g) s = .next (s.setDesk g { s.desk g with
        state := .yielding, yield := some s.params.yieldTimeout, lease := none })) ∧
    ((s.desk g).lease = some 0 → (s.desk g).state = .yielding →
      exec (.leaseExpiry g) s = .next (s.setDesk g { s.desk g with lease := none })) ∧
    (s.Sound → (s.desk g).yield = some 0 → (s.desk g).state = .yielding →
      ∃ s1 s2 u, exec (.yieldTimeout g) s = .next u ∧ stopGen g .yieldTimeout s = .ok s1 ∧ replanPass s1 = .ok s2 ∧
        Settled s s2 u ∧
        u.desk g = { s.desk g with
          state := .stopped, desk := .empty, repeats := 0, order := none, lease := none,
          yield := none, collection := none, hold := some 250, holdEnd := .joined } ∧
        u.alloc g = { s.alloc g with memory := [] })

/-- R149, R150, R154: the end of a collection timer discards the BUILT order and empties the desk, the generator staying as it
is; a WAITING desk whose wait test passes builds and becomes COMPLETE. At the end of a hold the generator becomes what the
hold recorded; a re-plan pass follows when that is JOINED. R91, R96, R97: what settles once an event's changes are made. In
slot order, for each pan that was not heating-eligible before, a timer at 0 completes, and then a boost at 0 ends, if the pan
is heating-eligible; then each WAITING desk whose wait test passes builds, in generator-number order. Where this stands in an
event, that it is taken for each slot with reports of its own, and that the record is written before TIMER DONE is posted are
the model's choices: assumption log 10, 33 and 45. -/
def Obligations.CollectionWaitAndHoldEnd : Prop :=
  (∀ (n : Slot) (x : State), completeIfDue n x =
     if x.heating n = true ∧ (x.pan n).timer = some 0 then
       (editPan n (fun p => if p.autoHold then { p with timer := none, held := true }
         else { p with timer := none, level := 0, source := .panel, boost := none }) x).andThen fun y =>
           reportAll (y.legHolders (y.panId n))
             (y.postEvent ⟨.timerDone, y.now % 65536, some ⟨n, some (y.pan n).tag⟩, none, none, none⟩)
     else .ok x) ∧
  (∀ (n : Slot) (x : State), endBoostIfDue n x =
     if x.heating n = true ∧ (x.pan n).boost = some 0 then
       (editPan n (fun p => { p with level := 12, boost := none }) x).andThen fun y =>
         reportAll (y.legHolders (y.panId n))
           (y.postEvent ⟨.boostEnded, y.now % 65536, some ⟨n, some (y.pan n).tag⟩, none, none, none⟩)
     else .ok x) ∧
  (∀ (g : Gen) (x : State),
     ((∀ entry, (x.desk g).desk ≠ .waiting entry) ∨ x.waitBlocked g = true → retestDesk g x = .ok x) ∧
     ∀ entry, (x.desk g).desk = .waiting entry → x.waitBlocked g = false →
       retestDesk g x = (buildOrder g x).andThen fun y => .ok (y.setDesk g { y.desk g with
         desk := .complete entry, collection := some y.params.collectionTime })) ∧
  (∀ before s : State, settle before s =
     (forEach (fun n x => if before.heating n then .ok x else (completeIfDue n x).andThen (endBoostIfDue n)) allSlots s).andThen
       fun x => (((retestDesk 0 x).andThen (retestDesk 1)).andThen (retestDesk 2)).andThen (retestDesk 3)) ∧
  (∀ (s : State) (g : Gen), s.rstLow = false → s.Sound →
     (∀ entry o, (s.desk g).collection = some 0 → (s.desk g).desk = .complete entry → (s.desk g).order = some o →
       ∃ s1, releaseCoils g false s = .ok s1 ∧
         exec (.collectionExpiry g) s = .next ((s1.dropOrderPosting g).setDesk g
           { s.desk g with desk := .empty, repeats := 0, order := none, collection := none })) ∧
     (∀ entry, (s.desk g).desk = .waiting entry → s.waitBlocked g = true → exec (.waitConditionCleared g) s = .next s) ∧
     (∀ entry, (s.desk g).desk = .waiting entry → s.waitBlocked g = false →
       ∃ s1, buildOrder g s = .ok s1 ∧ OrderWork s s1 ∧
         exec (.waitConditionCleared g) s = .next (s1.setDesk g { s1.desk g with
           desk := .complete entry, collection := some s.params.collectionTime }) ∧
         ∃ o, s1.desk g = { s.desk g with order := some o } ∧ o.state = .built)) ∧
  (∀ (s : State) (g : Gen), s.rstLow = false → (s.desk g).state = .stopped → (s.desk g).hold = some 0 →
     ((s.desk g).holdEnd = .absent →
       exec (.holdEnd g) s = .next (s.setDesk g { s.desk g with state := .absent, hold := none })) ∧
     ((s.desk g).holdEnd = .joined → s.Sound →
       ∃ s1 u, exec (.holdEnd g) s = .next u ∧
         replanPass (s.setDesk g { s.desk g with state := .joined, hold := none }) = .ok s1 ∧
         OrderWork (s.setDesk g { s.desk g with state := .joined, hold := none }) s1 ∧ Settled s s1 u))

/-! ## Shared work on orders, events and footprints -/

/-- R9: a build takes exactly the coils of the new order's legs from CLAIMED to DRIVEN, and only coils that were CLAIMED,
driven by G and fit; it changes no other coil, and a coil of columns 0 and 7 goes to its home generator only. -/
def Obligations.BuildTakesItsCoils : Prop :=
  ∀ (s : State) (g : Gen), s.Sound →
    ∃ t o, buildOrder g s = .ok t ∧ (t.desk g).order = some o ∧
      (∀ c, (∃ l ∈ o.legs, c ∈ l.coils) → ∃ p, (s.coil c).state = .claimed p ∧ s.driverGen c = g ∧ (s.coil c).hot = false ∧
        (s.coil c).fault = false ∧ s.excluded c = false ∧ t.coil c = { s.coil c with state := .driven p o.number } ∧
        (column c = 0 ∨ column c = 7 → homeGen c = g)) ∧
      (∀ c, (∀ l ∈ o.legs, c ∉ l.coils) → t.coil c = s.coil c)

/-- R122, R125 to R137: the order a build writes, the charge it takes and what it leaves alone. The candidates are the
heating-eligible pans with a leg set on G; two at most are chosen, by debt and then by the Priority List; each chosen pan
has its inverter by the memory; the power left is fitted in Priority List order; a leg of no power is omitted. The pans'
debts and masks follow, and POWER REDUCED and POWER RESTORED are posted in slot order. R90: the power of a level. -/
def Obligations.BuildWritesTheOrder : Prop :=
  (∀ (s : State) (n : Fin 13), s.levelPower n.succ = s.levels.entry n ∧ s.levelPower 0 = 0) ∧
  ∀ (s : State) (g : Gen), s.Sound → ListsOk s →
    let fit : CoilNo → Bool := fun c => !(s.coil c).hot && !(s.coil c).fault && !s.excluded c
    let legSet : Slot → List CoilNo := fun n => allCoils.filter fun c =>
      decide ((s.coil c).state = .claimed (s.panId n) ∧ s.driverGen c = g) && fit c
    let usable : Slot → List CoilNo := fun n => allCoils.filter fun c =>
      decide ((s.coil c).state.owner = some (s.panId n)) && fit c
    let cover : List CoilNo → Nat := fun cs => (cs.map fun c => ((s.coil c).coverage.map (·.val)).getD 0).sum
    let demand : Slot → Nat := fun n =>
      if cover (usable n) = 0 then 0 else s.levelPower (s.pan n).level * cover (legSet n) / cover (usable n) / 10 * 10
    let available := (s.account (s.genPhase g)).target -
      ((allGens.filter fun h => decide (h ≠ g ∧ s.genPhase h = s.genPhase g)).map s.charge).sum
    let cands := allSlots.filter fun n => s.heating n && !(legSet n).isEmpty
    let ahead : Slot → Slot → Prop := fun a b => s.priority.idxOf a < s.priority.idxOf b
    let outranks : Slot → Slot → Prop := fun a b =>
      (s.pan b).debt < (s.pan a).debt ∨ ((s.pan a).debt = (s.pan b).debt ∧ ahead a b)
    let kept : Slot → Option Inverter := fun n => ((s.alloc g).memory.find? fun e => decide (e.pan = s.panId n)).map (·.inverter)
    ∃ (t : State) (o : Order) (chosen served : List Slot), buildOrder g s = .ok t ∧ t.Sound ∧
      (chosen.Nodup ∧ (∀ n ∈ chosen, n ∈ cands) ∧ chosen.length = min 2 cands.length ∧ chosen.Pairwise outranks ∧
        ∀ a ∈ chosen, ∀ b ∈ cands, b ∉ chosen → outranks a b) ∧
      (served.Perm chosen ∧ served.Pairwise ahead) ∧
      (let fitted : Nat → Slot → Nat := fun left n => min (demand n) (min 3600 left) / 10 * 10
       let power : Slot → Nat := fun n =>
         match served with
         | [] => 0
         | a :: _ => if n = a then fitted available a else fitted (available - fitted available a) n
       let inverter : Slot → Inverter := fun n =>
         match kept n, (chosen.find? fun m => decide (m ≠ n)).bind kept with
         | some i, _ => i
         | none, some .a => .b
         | none, some .b => .a
         | none, none => if chosen.head? = some n then .a else .b
       let legs : List Leg := (chosen.filter fun n => decide (power n ≠ 0)).map fun n =>
         let isSplit := decide ((s.pan n).plan = some .split)
         ⟨inverter n, s.panId n, legSet n, power n, isSplit, if isSplit then n else 0⟩
       o.legs = (legs.filter fun l => decide (l.inverter = .a)) ++ (legs.filter fun l => decide (l.inverter = .b)) ∧
       (∀ n, t.pan n = { s.pan n with
           debt := if n ∈ chosen then 0 else if n ∈ cands then min 15 ((s.pan n).debt + 1) else (s.pan n).debt
           short := (t.pan n).short, unserved := (t.pan n).unserved } ∧
         ∀ h : Gen,
           (t.pan n).short.getLsbD h.val = (if h ≠ g then (s.pan n).short.getLsbD h.val
             else if n ∈ chosen then decide (power n < demand n)
             else if n ∈ cands then (s.pan n).short.getLsbD h.val else false) ∧
           (t.pan n).unserved.getLsbD h.val = (if h ≠ g then (s.pan n).unserved.getLsbD h.val
             else decide (n ∉ chosen ∧ n ∈ cands)))) ∧
      (let told : State := allSlots.foldl (fun x n =>
         if ((s.pan n).short = 0 ↔ (t.pan n).short = 0) then x
         else if (t.pan n).short ≠ 0 then x.postEvent ⟨.powerReduced, s.now % 65536, some ⟨n, some (s.pan n).tag⟩, some g, none, none⟩
         else if s.heating n then x.postEvent ⟨.powerRestored, s.now % 65536, some ⟨n, some (s.pan n).tag⟩, some g, none, none⟩
         else x) s
       t.events = told.events ∧ t.eventsLost = told.eventsLost) ∧
      t.desk g = { s.desk g with order := some o } ∧ o.state = .built ∧
      o.number = (if (s.alloc g).lastNumber = 255 then 1 else (s.alloc g).lastNumber + 1) ∧
      t.alloc g = { s.alloc g with lastNumber := o.number } ∧ o.charge = (o.legs.map (·.power)).sum ∧ o.legs.length ≤ 2 ∧
      (o.legs.map (·.pan)).Nodup ∧
      (∀ l ∈ o.legs, l.coils ≠ [] ∧ 10 ≤ l.power ∧ l.power ≤ 3600 ∧ l.power % 10 = 0 ∧ s.heatingOwner l.pan = true) ∧
      o.charge ≤ available ∧
      t.account (s.genPhase g) = { s.account (s.genPhase g) with load := (s.account (s.genPhase g)).load + o.charge } ∧
      (∀ q, q ≠ s.genPhase g → t.account q = s.account q) ∧
      (∀ h, h ≠ g → t.desk h = s.desk h ∧ t.alloc h = s.alloc h) ∧ OrderWork s t

/-- R10: what the release of an order makes of each of its coils, a coil that becomes CLAIMED following its owner's plan; no
other coil changes. That a single plan which does not reach the coil calls for its home is the model's choice (assumption log
31), and so is that a home coil of a generator being disabled follows no plan (log 39). R145: the energy its legs add when it
was ISSUED. R114: its charge leaves the load, and a pending shed ends when the load comes to the target or below. -/
def Obligations.OrderIsReleased : Prop :=
  ∀ (s : State) (g : Gen) (o : Order), s.Sound → (s.desk g).order = some o →
    (∀ disabling, releaseOrder g disabling s = (countEnergy g s).andThen (releaseCoils g disabling)) ∧
    (∀ disabling, ∃ t, releaseCoils g disabling s = .ok t ∧ t = { s with coils := t.coils } ∧
      ∀ c, (¬ ((s.coil c).state.order = some o.number ∧ s.driverGen c = g) → t.coil c = s.coil c) ∧
        ((s.coil c).state.order = some o.number → s.driverGen c = g →
          (∀ p n d, (s.coil c).state = .transfer p n d → d ≠ (s.coil c).driver) →
          let r := s.coil c
          let leaves : Prop := disabling = true ∧ homeGen c = g
          let claimed : PanId → Coil := fun p =>
            if leaves then { r with state := .claimed p }
            else match (s.pan p.slot).plan with
            | some plan =>
              if (s.pan p.slot).tag = p.tag ∧ hasRelay c = true ∧ r.driver ≠ plannedPosition c plan then
                { r with driver := plannedPosition c plan, state := .switching (some p) 15 }
              else { r with state := .claimed p }
            | none => { r with state := .claimed p }
          t.coil c = match r.state with
            | .driven p _ => claimed p
            | .releasing none _ false => { r with state := .free }
            | .releasing (some p) _ false => claimed p
            | .releasing _ _ true => { r with
                driver := .home, state := .off (if r.driver = .alternate then some 15 else none) }
            | .transfer p _ d => if leaves then { r with state := .claimed p }
              else { r with driver := d, state := .switching (some p) 15 }
            | _ => r)) ∧
    (∃ t, countEnergy g s = .ok t ∧ t = { s with pans := t.pans } ∧
      (o.state = .built → t = s) ∧
      ∀ issued, o.state = .issued issued → ∀ n, t.pan n = { s.pan n with
        energy := (s.pan n).energy + if (s.pan n).state = PanState.free then 0
          else ((o.legs.filter fun l => decide (l.pan = s.panId n)).map fun l => l.power * (s.now - issued)).sum }) ∧
    (let p := s.genPhase g
     let a := s.account p
     let load := a.load - o.charge
     let without : Account → State := fun b => (s.setAccount p b).setDesk g { s.desk g with order := none }
     s.dropOrderPosting g = match a.shed with
       | some _ =>
         if load ≤ a.target then (without ⟨a.target, a.target, load, none⟩).postEvent
           ⟨.shedDone, s.now % 65536, none, none, none, some (.phase p)⟩
         else without { a with load := load }
       | none => without { a with load := load })

/-- R99 to R101, R159: one report is made for each order affected, in generator-number order. A report on an ISSUED order asks
an ORDERED generator to yield and leaves a YIELDING one; a BUILT order is released and built afresh, or its desk waits again;
a report on no order does nothing, and one on an order whose code fails puts the part into SAFE. The orders with a leg for a
pan, and those with a charge on a phase. -/
def Obligations.DownwardReports : Prop :=
  (∀ (gs : List Gen) (s : State),
    let handle : Gen → State → Flow := fun g x => if g ∈ gs then reportDown g x else .ok x
    reportAll gs s = (((handle 0 s).andThen (handle 1)).andThen (handle 2)).andThen (handle 3)) ∧
  (∀ (s : State) (g : Gen),
    (∀ p, g ∈ s.legHolders p ↔ ∃ o, (s.desk g).order = some o ∧ ∃ l ∈ o.legs, l.pan = p) ∧
    (∀ p, g ∈ s.chargedOn p ↔ s.genPhase g = p ∧ s.charge g ≠ 0) ∧
    s.charge g = (((s.desk g).order.map (·.charge)).getD 0) ∧
    ∀ o, (s.desk g).order = some o → o.codeOk = false → reportDown g s = .safe (enterSafe (.order g) s)) ∧
  ∀ (s : State) (g : Gen), s.Sound →
    ((s.desk g).order = none → reportDown g s = .ok s) ∧
    (∀ o, s.issuedOrder g = some o → (s.desk g).state = .ordered → reportDown g s = .ok (s.setDesk g { s.desk g with
      state := .yielding, yield := some s.params.yieldTimeout })) ∧
    (∀ o, s.issuedOrder g = some o → (s.desk g).state ≠ .ordered → reportDown g s = .ok s) ∧
    ∀ o entry, (s.desk g).order = some o → o.state = .built → (s.desk g).desk = .complete entry →
      ∃ s1, releaseCoils g false s = .ok s1 ∧
        let w := s1.dropOrderPosting g
        (w.waitBlocked g = true →
          reportDown g s = .ok (w.setDesk g { w.desk g with desk := .waiting entry, collection := none })) ∧
        (w.waitBlocked g = false → ∃ t, buildOrder g w = .ok t ∧ reportDown g s = .ok (t.setDesk g { t.desk g with
          desk := .complete entry, collection := some s.params.collectionTime }))

/-- R153: the steps of a stop: the order released, the charge and the memory, the desk, GENERATOR STOPPED with any SHED
DONE after it, and the hold; a generator stopped to be DISABLED has no hold, and a
STOPPED one is stopped so as well (R156). For cause RESTART no shed is pending: the
model takes the pending sheds away before RESTART's stops, whose releases are not tested (R108; assumption log 28). -/
def Obligations.GeneratorStops : Prop :=
  ∀ (s : State) (g : Gen) (cause : StopCause), s.Sound →
    ((s.desk g).state.inService = true ∨ ((s.desk g).state = .stopped ∧ cause = .disable)) → cause ≠ .safe →
    (cause = .restart → ∀ p, (s.account p).shed = none) →
    let halted := s.setDesk g { s.desk g with state := .stopped }
    ∃ s1 t, releaseOrder g (decide (cause = .disable)) halted = .ok s1 ∧ stopGen g cause s = .ok t ∧ t.Sound ∧
      t.coils = s1.coils ∧ t.pans = s1.pans ∧
      t.desk g = { s.desk g with
        state := if cause = .disable then .disabled else .stopped
        desk := .empty, repeats := 0, order := none, lease := none, yield := none, collection := none
        hold := if cause = .disable then none else some 250
        holdEnd := if cause = .disable then (s.desk g).holdEnd else if cause = .restart then .absent else .joined } ∧
      t.alloc g = { s.alloc g with memory := [] } ∧ (∀ h, h ≠ g → t.desk h = s.desk h ∧ t.alloc h = s.alloc h) ∧
      (let w := if (s.desk g).order.isSome then s1.dropOrder g else s1
       let posted := s1.postEvent ⟨.generatorStopped, s.now % 65536, none, some g, none, some (.stop cause)⟩
       let last := if (s.desk g).order.isSome = true ∧ (s.account (s.genPhase g)).shed.isSome = true ∧
           (s.account (s.genPhase g)).load - s.charge g ≤ (s.account (s.genPhase g)).target
         then posted.postEvent ⟨.shedDone, s.now % 65536, none, none, none, some (.phase (s.genPhase g))⟩ else posted
       t.accounts = w.accounts ∧ t.events = last.events ∧ t.eventsLost = last.eventsLost) ∧
      t.windows = s.windows ∧ t.permit = s.permit ∧ t.params = s.params ∧ t.priority = s.priority ∧ t.ports = s.ports

/-- R39, R53, R54: confirming a candidate into a FREE slot gives the slot the next tag, the candidate's footprint and centre, the
preset of the window its centre lies in, the end of the Priority List, and posts its events; the slot looked for is the
lowest-numbered FREE one. Candidates are taken in list order; one that is not due stays, and a due one that finds no FREE
slot stays with PAN REFUSED posted once. -/
def Obligations.CandidateIsConfirmed : Prop :=
  (∀ (s : State) (n : Slot) (c : Candidate), s.Sound → (s.pan n).state = .free →
    let w := s.presetAt c.centre
    let p : Pan := { Pan.freed ((s.pan n).tag + 1) with
      state := .present, footprint := c.footprint, centre := some c.centre, total := c.total, window := w
      level := (w.map fun x => (s.window x).preset.castSucc).getD 0
      source := if w.isSome then .window else .panel }
    let placed : State := (({ s with priority := s.priority ++ [n] }.setPan n p).setPartSecond n 0).postEvent
      ⟨.panConfirmed, s.now % 65536, some ⟨n, some p.tag⟩, none, none, none⟩
    confirmInto n c s = .ok (match w with
      | some x => placed.postEvent ⟨.levelSetByWindow, s.now % 65536, some ⟨n, some p.tag⟩, none, none, some (.window x)⟩
      | none => placed) ∧
    ∀ k, s.freeSlot = some k → (s.pan k).state = .free ∧ ∀ m, m < k → (s.pan m).state ≠ .free) ∧
  ∀ (s : State) (c : Candidate) (rest stayed : List Candidate),
    let due : Prop := s.params.confirmCount ≤ c.count ∧ c.count ≠ 0 ∧ 8 ≤ c.total
    stepConfirm [] stayed s = .ok { s with candidates := stayed } ∧
    (¬ due → stepConfirm (c :: rest) stayed s = stepConfirm rest (stayed ++ [c]) s) ∧
    (due → ∀ n, s.freeSlot = some n → stepConfirm (c :: rest) stayed s = (confirmInto n c s).andThen (stepConfirm rest stayed)) ∧
    (due → (∀ n, (s.pan n).state ≠ .free) → stepConfirm (c :: rest) stayed s =
      stepConfirm rest (stayed ++ [{ c with refusalPosted := true }])
        (if c.refusalPosted then s else s.postEvent ⟨.panRefused, s.now % 65536, none, none, none, none⟩))

/-- R194: a posted event is absorbed by a waiting PAN MOVED of its slot, appended while there is room, or dropped with the
LOST flag set; nothing else changes. -/
def Obligations.EventPosting : Prop :=
  ∀ (s : State) (e : Event),
    let absorbed : Prop := e.kind = .panMoved ∧ ∃ p, e.pan = some p ∧
      ∃ x ∈ s.events, x.kind = .panMoved ∧ ∃ q, x.pan = some q ∧ q.slot = p.slot
    (absorbed → s.postEvent e = s) ∧
    (¬ absorbed → s.events.length < 16 → s.postEvent e = { s with events := s.events ++ [e] }) ∧
    (¬ absorbed → 16 ≤ s.events.length → s.postEvent e = { s with eventsLost := true }) ∧
    ∀ kind, (s.event kind).stamp = s.now % 65536

/-- R2, R140, R170, R183, R196: the home and alternate generators of a coil, its relay's number and what drives it; the lines
and the link flags follow the state. -/
def Obligations.LinesFollowTheState : Prop :=
  (∀ c : CoilNo, column c = c.val % 8 ∧ row c = c.val / 8 ∧ (homeGen c).val = column c / 2 ∧
    (altGen c).map (·.val) = (if column c = 0 ∨ column c = 7 then none
      else if column c % 2 = 0 then some (column c / 2 - 1) else some (column c / 2 + 1)) ∧
    (hasRelay c = true ↔ 1 ≤ column c ∧ column c ≤ 6) ∧ relayNumber c = 6 * row c + column c ∧
    (∀ g, reaches g c = true ↔ homeGen c = g ∨ altGen c = some g) ∧
    driverAt c .home = homeGen c ∧ (∀ g, altGen c = some g → driverAt c .alternate = g) ∧
    ∀ s : State, s.driverGen c = driverAt c (s.coil c).driver) ∧
  ∀ s : State, s.rstLow = false →
    (∀ g, (s.stopLine g = true ↔ (s.desk g).state = .stopped ∨ (s.desk g).state = .disabled) ∧
      (s.yieldLine g = true ↔ (s.desk g).state = .yielding)) ∧
    (s.attn = true ↔ s.events ≠ []) ∧ (s.faultLine = true ↔ s.safe = true) ∧
    (∀ c, s.relayLine c = true ↔ (1 ≤ column c ∧ column c ≤ 6) ∧ (s.coil c).driver = .alternate) ∧
    (∀ l, ((s.linkFlags l).getLsbD 0 = (s.port l).overrun ∧ (s.linkFlags l).getLsbD 1 = s.safe ∧
      ((s.linkFlags l).getLsbD 2 = true ↔ s.events ≠ []) ∧ ∀ i, 3 ≤ i → (s.linkFlags l).getLsbD i = false))

/-- R30, R32 to R34: a coil qualifies when its coverage is 4 or more, it is not OFF and its fault flag is clear. The component
list divides the qualifying coils into sets joined edge to edge, each whole, in the order of their first coils, and gives
each the sum of its coverages and, on each axis, 4 times the mean position weighted by coverage, to the nearest integer,
a half upward. -/
def Obligations.ComponentsPartition : Prop :=
  (∀ r : Coil, r.qualifies = true ↔ (∃ v, r.coverage = some v ∧ 4 ≤ v.val) ∧ (∀ left, r.state ≠ .off left) ∧ r.fault = false) ∧
  (∀ (s : State) (cs : List CoilNo),
    let cover : CoilNo → Nat := fun c => ((s.coil c).coverage.map (·.val)).getD 0
    let total := (cs.map cover).sum
    let nearest : Nat → (CoilNo → Nat) → Prop := fun p axis =>
      let moment := (cs.map fun c => cover c * axis c).sum
      (2 * p) * total ≤ 2 * (4 * moment) + total ∧ 2 * (4 * moment) + total < (2 * p + 2) * total
    (s.componentOf cs).coils = cs ∧ (s.componentOf cs).total = total ∧
    (total ≠ 0 → nearest (s.componentOf cs).centre.col column ∧ nearest (s.componentOf cs).centre.row row)) ∧
  (∀ c : CoilNo, c.val = 8 * row c + column c ∧ column c < 8) ∧
  ∀ s : State,
    (∀ c, (s.coil c).qualifies = true → ∃ k ∈ s.components, c ∈ k.coils) ∧
    (∀ k ∈ s.components, k.coils ≠ [] ∧ k.coils.Pairwise (· < ·) ∧ k = s.componentOf k.coils ∧
      (∀ c ∈ k.coils, (s.coil c).qualifies = true ∧ ∀ d, Neighbours c d → (s.coil d).qualifies = true → d ∈ k.coils) ∧
      ∀ c ∈ k.coils, ∀ d ∈ k.coils, Relation.ReflTransGen (fun a b => Neighbours a b ∧ b ∈ k.coils) c d) ∧
    s.components.Pairwise (fun k m => k.coils.head? < m.coils.head? ∧ ∀ c ∈ k.coils, c ∉ m.coils)

/-- R35, R104: a centre lies in the cell whose centre is nearest on each axis, the higher cell when midway; the window that
holds it is the lowest-numbered PRESET window that contains that cell. -/
def Obligations.CentreCell : Prop :=
  (∀ p y : Nat, let x := (p + 2) / 4
    max (4 * x) p - min (4 * x) p ≤ max (4 * y) p - min (4 * y) p ∧
      (max (4 * x) p - min (4 * x) p = max (4 * y) p - min (4 * y) p → y ≤ x)) ∧
  ∀ (s : State) (k : Centre) (w : WindowNo),
    let holds : WindowNo → Prop := fun v => (s.window v).mode = .preset ∧
      (s.window v).colBase ≤ (k.col + 2) / 4 ∧ (k.col + 2) / 4 ≤ (s.window v).colLimit ∧
      (s.window v).rowBase ≤ (k.row + 2) / 4 ∧ (k.row + 2) / 4 ≤ (s.window v).rowLimit
    s.presetAt k = some w ↔ holds w ∧ ∀ v, v < w → ¬ holds v

/-! ## Footprint evaluation and plans -/

/-- R44 to R48: an evaluation runs the nine steps and then the BARRED test, each from where the one before it ended. Each
PRESENT pan picks the component it shares most coils with, the larger total and then the lower first coil deciding. A pan
that alone picks its component takes it whole; pans that share one divide it, each keeping the coils it held and the pan
that held most of the component taking the rest; a pan that picks nothing is LOST, with its event. (Two footprints that
shared a coil, which no run reaches, would leave it with the lower slot.) -/
def Obligations.EvaluationFindsThePans : Prop :=
  ∀ s : State, s.Sound →
    let comps := s.components
    ∃ (picks : List Pick) (s1 s2 s3 s4 s5 s6 t : State), evaluate s = .ok t ∧ t.Sound ∧ s1.Sound ∧
      stepCandidates (comps.filter fun k => decide (∀ p ∈ picks, p.component ≠ k)) s1 = .ok s2 ∧
      stepConfirm s2.candidates [] s2 = .ok s3 ∧ stepOwners s3 = .ok s4 ∧ stepWindows (stepMoved picks s4) = .ok s5 ∧
      replanPass s5 = .ok s6 ∧ barredFrom allSlots [] s6 = .ok t ∧
      picks.Pairwise (fun p q => p.slot < q.slot) ∧
      (∀ p, p ∈ picks ↔ (s.pan p.slot).state = .present ∧ p.old = (s.pan p.slot).footprint ∧ IsPick p.old comps p.component) ∧
      (let lost := allSlots.filter fun n => decide ((s.pan n).state = .present ∧ ∀ p ∈ picks, p.slot ≠ n)
       let told : State := lost.foldl (fun x n => x.postEvent ⟨.panLost, s.now % 65536, some ⟨n, some (s.pan n).tag⟩, none, none, none⟩) s
       s1 = { s with pans := s1.pans, events := told.events, eventsLost := told.eventsLost } ∧
       (∀ n, n ∈ lost → s1.pan n = { s.pan n with
         state := .lost, footprint := [], total := 0, plan := none, split := false
         lostRemaining := some (s.params.lostTime * 1000) })) ∧
      (∀ n, (s.pan n).state ≠ .present → s1.pan n = s.pan n) ∧
      ∀ p ∈ picks,
        let k := p.component
        let rivals : Pick → Prop := fun q => q ∈ picks ∧ q ≠ p ∧ q.component = k
        ((∀ q, ¬ rivals q) → s1.pan p.slot = { s.pan p.slot with
          footprint := k.coils, centre := some k.centre, total := k.total }) ∧
        ((∃ q, rivals q) → ∃ share : List CoilNo, share.Pairwise (· < ·) ∧
          (∀ c, c ∈ share ↔ c ∈ k.coils ∧
            ((c ∈ p.old ∧ ∀ q, rivals q → q.slot < p.slot → c ∉ q.old) ∨
              (c ∉ p.old ∧ ∀ q, rivals q → c ∉ q.old ∧ (overlap k.coils q.old < overlap k.coils p.old ∨
                (overlap k.coils q.old = overlap k.coils p.old ∧ p.slot < q.slot))))) ∧
          s1.pan p.slot = { s.pan p.slot with
            footprint := share, centre := some (s.componentOf share).centre, total := (s.componentOf share).total })

/-- R49 to R52: of the components no pan picked, each candidate takes the one it picks unless another candidate shares more
of it, or as much and is older; it is renewed by it, and a candidate that takes none is dropped. The components left bring
back, in list order, the nearest LOST pan within 8 quarter-pitches, the lower slot among equals; the others become new
candidates while there are fewer than 4. -/
def Obligations.CandidatesAndReturns : Prop :=
  (∀ (s : State) (unpicked : List Component), s.Sound → unpicked.Pairwise (fun k m => k.coils.head? < m.coils.head?) →
    ∃ (took : Nat → Option Component) (t : State), stepCandidates unpicked s = .ok t ∧ t.Sound ∧
      (∀ i k, took i = some k ↔ ∃ c, s.candidates[i]? = some c ∧ IsPick c.footprint unpicked k ∧
        ∀ j d, j ≠ i → s.candidates[j]? = some d → IsPick d.footprint unpicked k →
          overlap k.coils d.footprint < overlap k.coils c.footprint ∨
            (overlap k.coils d.footprint = overlap k.coils c.footprint ∧ i < j)) ∧
      (let renewed : List Candidate := s.candidates.zipIdx.filterMap fun x => (took x.2).map fun k => { x.1 with
         footprint := k.coils, centre := k.centre, total := k.total
         count := if 8 ≤ k.total then min (x.1.count + 1) s.params.confirmCount else x.1.count }
       let left := unpicked.filter fun k => decide (∀ i ∈ List.range s.candidates.length, took i ≠ some k)
       let bring : State × List Component → Component → State × List Component := fun x k =>
         match x.1.returning k with
         | some n => ((x.1.setPan n { x.1.pan n with
             state := .present, footprint := k.coils, centre := some k.centre, total := k.total, lostRemaining := none
             held := (x.1.pan n).held || (x.1.pan n).holdOnLift }).postEvent
               ⟨.panReturned, s.now % 65536, some ⟨n, some (s.pan n).tag⟩, none, none, none⟩, x.2)
         | none => (x.1, x.2 ++ [k])
       let brought := left.foldl bring (s, [])
       t = { brought.1 with
         candidates := renewed ++ (brought.2.take (4 - renewed.length)).map fun k => ⟨k.coils, k.centre, k.total, 0, false⟩ })) ∧
  ∀ (s : State) (k : Component) (n : Slot),
    let near : Slot → Nat → Prop := fun m d => (s.pan m).state = .lost ∧ ∃ p, (s.pan m).centre = some p ∧
      d = max (max p.col k.centre.col - min p.col k.centre.col) (max p.row k.centre.row - min p.row k.centre.row) ∧ d ≤ 8
    s.returning k = some n ↔ 8 ≤ k.total ∧ ∃ d, near n d ∧ ∀ m e, m ≠ n → near m e → d < e ∨ (d = e ∧ n < m)

/-- R7, R8, R55: step 7 brings every coil's owner into line with the footprints: a coil that left its owner's footprint loses
the owner, a coil that joined one gains it, and a coil that stays is not written; then each order that lost a coil of a leg
is reported. -/
def Obligations.OwnersFollowFootprints : Prop :=
  ∀ s : State, s.Sound →
    let holder : CoilNo → Option PanId := fun c =>
      (allSlots.find? fun n => decide ((s.pan n).state = .present ∧ c ∈ (s.pan n).footprint)).map fun n => ⟨n, (s.pan n).tag⟩
    let legPan : CoilNo → Option PanId := fun c =>
      ((s.desk (s.driverGen c)).order.bind fun o =>
        if (s.coil c).state.order = some o.number then o.legs.find? fun l => decide (c ∈ l.coils) else none).map (·.pan)
    let left : CoilNo → CoilState := fun c =>
      match (s.coil c).state with
      | .claimed _ => .free
      | .driven _ n => .releasing none n false
      | .transfer _ n _ => .releasing none n false
      | .releasing _ n off => .releasing none n off
      | .switching _ ms => .switching none ms
      | other => other
    let joined : CoilNo → PanId → CoilState := fun c p =>
      match left c with
      | .free => .claimed p
      | .releasing _ n off => if legPan c = some p then .driven p n else .releasing (some p) n off
      | .switching _ ms => .switching (some p) ms
      | other => other
    let owned : State := { s with
      coils := Vector.ofFn fun c =>
        if (s.coil c).state.owner = holder c then s.coil c
        else match holder c with
          | some p => { s.coil c with state := joined c p }
          | none => { s.coil c with state := left c } }
    let robbed := (allCoils.filter fun c => (s.coil c).state.inLeg && decide ((s.coil c).state.owner ≠ holder c)).map s.driverGen
    ∃ t, stepOwners s = .ok t ∧ Reported robbed owned t

/-- R56, R57, R104, R105, R87: step 8 posts PAN MOVED, in slot order, for each pan that kept a component and whose footprint
(held in coil-number order) changed; then each PRESENT pan, in slot order, takes the preset of a window that is not the one
recorded, a raise moving it to the front and a lowering being reported, or loses its record of a window. The BARRED test
sets and clears the flag of every PRESENT pan with a footprint, in slot order, with its events, and reports what it bars. -/
def Obligations.MovedWindowsAndBarred : Prop :=
  (∀ (s : State) (picks : List Pick), stepMoved picks s = picks.foldl (fun x p =>
    if (s.pan p.slot).footprint = p.old then x
    else x.postEvent ⟨.panMoved, s.now % 65536, some ⟨p.slot, some (s.pan p.slot).tag⟩, none, none, none⟩) s) ∧
  (∀ s : State, s.Sound →
    let enter : State × List Gen → Slot → State × List Gen := fun x n =>
      let p := s.pan n
      if p.state ≠ .present then x
      else match p.centre.bind s.presetAt with
        | none => (x.1.setPan n { p with window := none }, x.2)
        | some w =>
          if p.window = some w then x
          else
            let level : Fin 14 := (s.window w).preset.castSucc
            let told : State := (x.1.setPan n { p with
              level := level, source := .window, window := some w, boost := none }).postEvent
                ⟨.levelSetByWindow, s.now % 65536, some ⟨n, some p.tag⟩, none, none, some (.window w)⟩
            (if p.level < level then { told with priority := n :: told.priority.erase n } else told,
              x.2 ++ if level < p.level then s.legHolders (s.panId n) else [])
    let entered := allSlots.foldl enter (s, [])
    ∃ t, stepWindows s = .ok t ∧ Reported entered.2 entered.1 t) ∧
  ∀ s : State, s.Sound →
    let test : State × List Gen → Slot → State × List Gen := fun x n =>
      let p := s.pan n
      let bars := p.footprint.all fun c => (s.coil c).hot || (s.coil c).fault
      let write : Bool → EventKind → State := fun b kind => (x.1.setPan n { p with barred := b }).postEvent
        ⟨kind, s.now % 65536, some ⟨n, some p.tag⟩, none, none, none⟩
      if p.state ≠ .present ∨ p.footprint = [] then x
      else if bars = true ∧ p.barred = false then (write true .panBarred, x.2 ++ s.legHolders (s.panId n))
      else if bars = false ∧ p.barred = true then (write false .panCleared, x.2)
      else x
    let tested := allSlots.foldl test (s, [])
    ∃ t, barredFrom allSlots [] s = .ok t ∧ Reported tested.2 tested.1 t

/-- R66 to R77, R80, R81: a re-plan pass gives each PRESENT pan with a footprint, in slot order, the eligible generator that
reaches the whole footprint and has most of it at home, the lower-numbered among equals, or SPLIT; each footprint coil then
moves by its state toward its planned driver: a CLAIMED one starts its relay change, a DRIVEN one of an ISSUED order becomes
TRANSFER, a TRANSFER one that is where it should be is DRIVEN again, any other stays. Each order with a DRIVEN coil to be
moved is then reported. -/
def Obligations.ReplanPassPlansAndMoves : Prop :=
  (∀ s : State, s.Sound →
    let toward : Plan → CoilNo → Position := fun q c =>
      match q with
      | .split => .home
      | .single g => if altGen c = some g then .alternate else .home
    let moved : State → Plan → CoilNo → Coil := fun x q c =>
      let r := x.coil c
      let p := toward q c
      match r.state with
      | .claimed o => if r.driver ≠ p ∧ hasRelay c = true then { r with driver := p, state := .switching (some o) 15 } else r
      | .driven o n =>
        if r.driver ≠ p ∧ (x.issuedOrder (x.driverGen c)).map (·.number) = some n then { r with state := .transfer o n p } else r
      | .transfer o n _ => if r.driver = p then { r with state := .driven o n } else r
      | _ => r
    let isMoving : State → Plan → CoilNo → Bool := fun x q c => decide ((x.coil c).driver ≠ toward q c) &&
      match (x.coil c).state with
      | .driven _ _ => true
      | _ => false
    let pass : State × List Gen → Slot → State × List Gen := fun x n =>
      let p := s.pan n
      let q := s.choosePlan p.footprint
      if p.state ≠ .present ∨ p.footprint = [] then x
      else ({ (x.1.setPan n { p with plan := some q, split := decide (q = .split) }) with
          coils := Vector.ofFn fun c => if c ∈ p.footprint then moved x.1 q c else x.1.coil c },
        x.2 ++ (p.footprint.filter (isMoving x.1 q)).map x.1.driverGen)
    let passed := allSlots.foldl pass (s, [])
    ∃ t, replanPass s = .ok t ∧ Reported passed.2 passed.1 t) ∧
  ∀ (s : State) (footprint : List CoilNo),
    let able : Gen → Prop := fun g => s.safe = false ∧ (s.desk g).state.inService = true ∧
      ∀ c ∈ footprint, homeGen c = g ∨ altGen c = some g
    let atHome : Gen → Nat := fun g => (footprint.filter fun c => decide (homeGen c = g)).length
    (∀ g, s.choosePlan footprint = .single g ↔ able g ∧
      ∀ h, h ≠ g → able h → atHome h < atHome g ∨ (atHome h = atHome g ∧ g < h)) ∧
    (s.choosePlan footprint = .split ↔ ∀ g, ¬ able g)
end

