-- ==== Sys2Proof/Laws/State.lean ====
section
/-! SUPPORT. What replacing one record leaves and changes: one lemma for each field and each update. -/

namespace Sys2Proof.Machine.State

variable (s : State)

/-! ### setCoil -/

@[simp] theorem rstLow_setCoil (c : CoilNo) (r : Coil) : (s.setCoil c r).rstLow = s.rstLow := rfl
@[simp] theorem rate_setCoil (c : CoilNo) (r : Coil) : (s.setCoil c r).rate = s.rate := rfl
@[simp] theorem now_setCoil (c : CoilNo) (r : Coil) : (s.setCoil c r).now = s.now := rfl
@[simp] theorem pans_setCoil (c : CoilNo) (r : Coil) : (s.setCoil c r).pans = s.pans := rfl
@[simp] theorem partSeconds_setCoil (c : CoilNo) (r : Coil) : (s.setCoil c r).partSeconds = s.partSeconds := rfl
@[simp] theorem candidates_setCoil (c : CoilNo) (r : Coil) : (s.setCoil c r).candidates = s.candidates := rfl
@[simp] theorem priority_setCoil (c : CoilNo) (r : Coil) : (s.setCoil c r).priority = s.priority := rfl
@[simp] theorem windows_setCoil (c : CoilNo) (r : Coil) : (s.setCoil c r).windows = s.windows := rfl
@[simp] theorem levels_setCoil (c : CoilNo) (r : Coil) : (s.setCoil c r).levels = s.levels := rfl
@[simp] theorem params_setCoil (c : CoilNo) (r : Coil) : (s.setCoil c r).params = s.params := rfl
@[simp] theorem phaseOf_setCoil (c : CoilNo) (r : Coil) : (s.setCoil c r).phaseOf = s.phaseOf := rfl
@[simp] theorem accounts_setCoil (c : CoilNo) (r : Coil) : (s.setCoil c r).accounts = s.accounts := rfl
@[simp] theorem desks_setCoil (c : CoilNo) (r : Coil) : (s.setCoil c r).desks = s.desks := rfl
@[simp] theorem allocs_setCoil (c : CoilNo) (r : Coil) : (s.setCoil c r).allocs = s.allocs := rfl
@[simp] theorem permit_setCoil (c : CoilNo) (r : Coil) : (s.setCoil c r).permit = s.permit := rfl
@[simp] theorem safe_setCoil (c : CoilNo) (r : Coil) : (s.setCoil c r).safe = s.safe := rfl
@[simp] theorem marks_setCoil (c : CoilNo) (r : Coil) : (s.setCoil c r).marks = s.marks := rfl
@[simp] theorem events_setCoil (c : CoilNo) (r : Coil) : (s.setCoil c r).events = s.events := rfl
@[simp] theorem eventsLost_setCoil (c : CoilNo) (r : Coil) : (s.setCoil c r).eventsLost = s.eventsLost := rfl
@[simp] theorem ports_setCoil (c : CoilNo) (r : Coil) : (s.setCoil c r).ports = s.ports := rfl
@[simp] theorem pending_setCoil (c : CoilNo) (r : Coil) : (s.setCoil c r).pending = s.pending := rfl
@[simp] theorem freeCount_setCoil (c : CoilNo) (r : Coil) : (s.setCoil c r).freeCount = s.freeCount := rfl
@[simp] theorem pan_setCoil (c : CoilNo) (r : Coil) (i : Slot) : (s.setCoil c r).pan i = s.pan i := rfl
@[simp] theorem partSecond_setCoil (c : CoilNo) (r : Coil) (i : Slot) : (s.setCoil c r).partSecond i = s.partSecond i := rfl
@[simp] theorem window_setCoil (c : CoilNo) (r : Coil) (i : WindowNo) : (s.setCoil c r).window i = s.window i := rfl
@[simp] theorem genPhase_setCoil (c : CoilNo) (r : Coil) (i : Gen) : (s.setCoil c r).genPhase i = s.genPhase i := rfl
@[simp] theorem account_setCoil (c : CoilNo) (r : Coil) (i : Phase) : (s.setCoil c r).account i = s.account i := rfl
@[simp] theorem desk_setCoil (c : CoilNo) (r : Coil) (i : Gen) : (s.setCoil c r).desk i = s.desk i := rfl
@[simp] theorem alloc_setCoil (c : CoilNo) (r : Coil) (i : Gen) : (s.setCoil c r).alloc i = s.alloc i := rfl
@[simp] theorem port_setCoil (c : CoilNo) (r : Coil) (i : Link) : (s.setCoil c r).port i = s.port i := rfl

/-! ### setPan -/

@[simp] theorem rstLow_setPan (n : Slot) (p : Pan) : (s.setPan n p).rstLow = s.rstLow := rfl
@[simp] theorem rate_setPan (n : Slot) (p : Pan) : (s.setPan n p).rate = s.rate := rfl
@[simp] theorem now_setPan (n : Slot) (p : Pan) : (s.setPan n p).now = s.now := rfl
@[simp] theorem coils_setPan (n : Slot) (p : Pan) : (s.setPan n p).coils = s.coils := rfl
@[simp] theorem partSeconds_setPan (n : Slot) (p : Pan) : (s.setPan n p).partSeconds = s.partSeconds := rfl
@[simp] theorem candidates_setPan (n : Slot) (p : Pan) : (s.setPan n p).candidates = s.candidates := rfl
@[simp] theorem priority_setPan (n : Slot) (p : Pan) : (s.setPan n p).priority = s.priority := rfl
@[simp] theorem windows_setPan (n : Slot) (p : Pan) : (s.setPan n p).windows = s.windows := rfl
@[simp] theorem levels_setPan (n : Slot) (p : Pan) : (s.setPan n p).levels = s.levels := rfl
@[simp] theorem params_setPan (n : Slot) (p : Pan) : (s.setPan n p).params = s.params := rfl
@[simp] theorem phaseOf_setPan (n : Slot) (p : Pan) : (s.setPan n p).phaseOf = s.phaseOf := rfl
@[simp] theorem accounts_setPan (n : Slot) (p : Pan) : (s.setPan n p).accounts = s.accounts := rfl
@[simp] theorem desks_setPan (n : Slot) (p : Pan) : (s.setPan n p).desks = s.desks := rfl
@[simp] theorem allocs_setPan (n : Slot) (p : Pan) : (s.setPan n p).allocs = s.allocs := rfl
@[simp] theorem permit_setPan (n : Slot) (p : Pan) : (s.setPan n p).permit = s.permit := rfl
@[simp] theorem safe_setPan (n : Slot) (p : Pan) : (s.setPan n p).safe = s.safe := rfl
@[simp] theorem marks_setPan (n : Slot) (p : Pan) : (s.setPan n p).marks = s.marks := rfl
@[simp] theorem events_setPan (n : Slot) (p : Pan) : (s.setPan n p).events = s.events := rfl
@[simp] theorem eventsLost_setPan (n : Slot) (p : Pan) : (s.setPan n p).eventsLost = s.eventsLost := rfl
@[simp] theorem ports_setPan (n : Slot) (p : Pan) : (s.setPan n p).ports = s.ports := rfl
@[simp] theorem pending_setPan (n : Slot) (p : Pan) : (s.setPan n p).pending = s.pending := rfl
@[simp] theorem freeCount_setPan (n : Slot) (p : Pan) : (s.setPan n p).freeCount = s.freeCount := rfl
@[simp] theorem coil_setPan (n : Slot) (p : Pan) (i : CoilNo) : (s.setPan n p).coil i = s.coil i := rfl
@[simp] theorem partSecond_setPan (n : Slot) (p : Pan) (i : Slot) : (s.setPan n p).partSecond i = s.partSecond i := rfl
@[simp] theorem window_setPan (n : Slot) (p : Pan) (i : WindowNo) : (s.setPan n p).window i = s.window i := rfl
@[simp] theorem genPhase_setPan (n : Slot) (p : Pan) (i : Gen) : (s.setPan n p).genPhase i = s.genPhase i := rfl
@[simp] theorem account_setPan (n : Slot) (p : Pan) (i : Phase) : (s.setPan n p).account i = s.account i := rfl
@[simp] theorem desk_setPan (n : Slot) (p : Pan) (i : Gen) : (s.setPan n p).desk i = s.desk i := rfl
@[simp] theorem alloc_setPan (n : Slot) (p : Pan) (i : Gen) : (s.setPan n p).alloc i = s.alloc i := rfl
@[simp] theorem port_setPan (n : Slot) (p : Pan) (i : Link) : (s.setPan n p).port i = s.port i := rfl

/-! ### setPartSecond -/

@[simp] theorem rstLow_setPartSecond (n : Slot) (ms : Nat) : (s.setPartSecond n ms).rstLow = s.rstLow := rfl
@[simp] theorem rate_setPartSecond (n : Slot) (ms : Nat) : (s.setPartSecond n ms).rate = s.rate := rfl
@[simp] theorem now_setPartSecond (n : Slot) (ms : Nat) : (s.setPartSecond n ms).now = s.now := rfl
@[simp] theorem coils_setPartSecond (n : Slot) (ms : Nat) : (s.setPartSecond n ms).coils = s.coils := rfl
@[simp] theorem pans_setPartSecond (n : Slot) (ms : Nat) : (s.setPartSecond n ms).pans = s.pans := rfl
@[simp] theorem candidates_setPartSecond (n : Slot) (ms : Nat) : (s.setPartSecond n ms).candidates = s.candidates := rfl
@[simp] theorem priority_setPartSecond (n : Slot) (ms : Nat) : (s.setPartSecond n ms).priority = s.priority := rfl
@[simp] theorem windows_setPartSecond (n : Slot) (ms : Nat) : (s.setPartSecond n ms).windows = s.windows := rfl
@[simp] theorem levels_setPartSecond (n : Slot) (ms : Nat) : (s.setPartSecond n ms).levels = s.levels := rfl
@[simp] theorem params_setPartSecond (n : Slot) (ms : Nat) : (s.setPartSecond n ms).params = s.params := rfl
@[simp] theorem phaseOf_setPartSecond (n : Slot) (ms : Nat) : (s.setPartSecond n ms).phaseOf = s.phaseOf := rfl
@[simp] theorem accounts_setPartSecond (n : Slot) (ms : Nat) : (s.setPartSecond n ms).accounts = s.accounts := rfl
@[simp] theorem desks_setPartSecond (n : Slot) (ms : Nat) : (s.setPartSecond n ms).desks = s.desks := rfl
@[simp] theorem allocs_setPartSecond (n : Slot) (ms : Nat) : (s.setPartSecond n ms).allocs = s.allocs := rfl
@[simp] theorem permit_setPartSecond (n : Slot) (ms : Nat) : (s.setPartSecond n ms).permit = s.permit := rfl
@[simp] theorem safe_setPartSecond (n : Slot) (ms : Nat) : (s.setPartSecond n ms).safe = s.safe := rfl
@[simp] theorem marks_setPartSecond (n : Slot) (ms : Nat) : (s.setPartSecond n ms).marks = s.marks := rfl
@[simp] theorem events_setPartSecond (n : Slot) (ms : Nat) : (s.setPartSecond n ms).events = s.events := rfl
@[simp] theorem eventsLost_setPartSecond (n : Slot) (ms : Nat) : (s.setPartSecond n ms).eventsLost = s.eventsLost := rfl
@[simp] theorem ports_setPartSecond (n : Slot) (ms : Nat) : (s.setPartSecond n ms).ports = s.ports := rfl
@[simp] theorem pending_setPartSecond (n : Slot) (ms : Nat) : (s.setPartSecond n ms).pending = s.pending := rfl
@[simp] theorem freeCount_setPartSecond (n : Slot) (ms : Nat) : (s.setPartSecond n ms).freeCount = s.freeCount := rfl
@[simp] theorem coil_setPartSecond (n : Slot) (ms : Nat) (i : CoilNo) : (s.setPartSecond n ms).coil i = s.coil i := rfl
@[simp] theorem pan_setPartSecond (n : Slot) (ms : Nat) (i : Slot) : (s.setPartSecond n ms).pan i = s.pan i := rfl
@[simp] theorem window_setPartSecond (n : Slot) (ms : Nat) (i : WindowNo) : (s.setPartSecond n ms).window i = s.window i := rfl
@[simp] theorem genPhase_setPartSecond (n : Slot) (ms : Nat) (i : Gen) : (s.setPartSecond n ms).genPhase i = s.genPhase i := rfl
@[simp] theorem account_setPartSecond (n : Slot) (ms : Nat) (i : Phase) : (s.setPartSecond n ms).account i = s.account i := rfl
@[simp] theorem desk_setPartSecond (n : Slot) (ms : Nat) (i : Gen) : (s.setPartSecond n ms).desk i = s.desk i := rfl
@[simp] theorem alloc_setPartSecond (n : Slot) (ms : Nat) (i : Gen) : (s.setPartSecond n ms).alloc i = s.alloc i := rfl
@[simp] theorem port_setPartSecond (n : Slot) (ms : Nat) (i : Link) : (s.setPartSecond n ms).port i = s.port i := rfl

/-! ### setWindow -/

@[simp] theorem rstLow_setWindow (w : WindowNo) (x : Window) : (s.setWindow w x).rstLow = s.rstLow := rfl
@[simp] theorem rate_setWindow (w : WindowNo) (x : Window) : (s.setWindow w x).rate = s.rate := rfl
@[simp] theorem now_setWindow (w : WindowNo) (x : Window) : (s.setWindow w x).now = s.now := rfl
@[simp] theorem coils_setWindow (w : WindowNo) (x : Window) : (s.setWindow w x).coils = s.coils := rfl
@[simp] theorem pans_setWindow (w : WindowNo) (x : Window) : (s.setWindow w x).pans = s.pans := rfl
@[simp] theorem partSeconds_setWindow (w : WindowNo) (x : Window) : (s.setWindow w x).partSeconds = s.partSeconds := rfl
@[simp] theorem candidates_setWindow (w : WindowNo) (x : Window) : (s.setWindow w x).candidates = s.candidates := rfl
@[simp] theorem priority_setWindow (w : WindowNo) (x : Window) : (s.setWindow w x).priority = s.priority := rfl
@[simp] theorem levels_setWindow (w : WindowNo) (x : Window) : (s.setWindow w x).levels = s.levels := rfl
@[simp] theorem params_setWindow (w : WindowNo) (x : Window) : (s.setWindow w x).params = s.params := rfl
@[simp] theorem phaseOf_setWindow (w : WindowNo) (x : Window) : (s.setWindow w x).phaseOf = s.phaseOf := rfl
@[simp] theorem accounts_setWindow (w : WindowNo) (x : Window) : (s.setWindow w x).accounts = s.accounts := rfl
@[simp] theorem desks_setWindow (w : WindowNo) (x : Window) : (s.setWindow w x).desks = s.desks := rfl
@[simp] theorem allocs_setWindow (w : WindowNo) (x : Window) : (s.setWindow w x).allocs = s.allocs := rfl
@[simp] theorem permit_setWindow (w : WindowNo) (x : Window) : (s.setWindow w x).permit = s.permit := rfl
@[simp] theorem safe_setWindow (w : WindowNo) (x : Window) : (s.setWindow w x).safe = s.safe := rfl
@[simp] theorem marks_setWindow (w : WindowNo) (x : Window) : (s.setWindow w x).marks = s.marks := rfl
@[simp] theorem events_setWindow (w : WindowNo) (x : Window) : (s.setWindow w x).events = s.events := rfl
@[simp] theorem eventsLost_setWindow (w : WindowNo) (x : Window) : (s.setWindow w x).eventsLost = s.eventsLost := rfl
@[simp] theorem ports_setWindow (w : WindowNo) (x : Window) : (s.setWindow w x).ports = s.ports := rfl
@[simp] theorem pending_setWindow (w : WindowNo) (x : Window) : (s.setWindow w x).pending = s.pending := rfl
@[simp] theorem freeCount_setWindow (w : WindowNo) (x : Window) : (s.setWindow w x).freeCount = s.freeCount := rfl
@[simp] theorem coil_setWindow (w : WindowNo) (x : Window) (i : CoilNo) : (s.setWindow w x).coil i = s.coil i := rfl
@[simp] theorem pan_setWindow (w : WindowNo) (x : Window) (i : Slot) : (s.setWindow w x).pan i = s.pan i := rfl
@[simp] theorem partSecond_setWindow (w : WindowNo) (x : Window) (i : Slot) : (s.setWindow w x).partSecond i = s.partSecond i := rfl
@[simp] theorem genPhase_setWindow (w : WindowNo) (x : Window) (i : Gen) : (s.setWindow w x).genPhase i = s.genPhase i := rfl
@[simp] theorem account_setWindow (w : WindowNo) (x : Window) (i : Phase) : (s.setWindow w x).account i = s.account i := rfl
@[simp] theorem desk_setWindow (w : WindowNo) (x : Window) (i : Gen) : (s.setWindow w x).desk i = s.desk i := rfl
@[simp] theorem alloc_setWindow (w : WindowNo) (x : Window) (i : Gen) : (s.setWindow w x).alloc i = s.alloc i := rfl
@[simp] theorem port_setWindow (w : WindowNo) (x : Window) (i : Link) : (s.setWindow w x).port i = s.port i := rfl

/-! ### setGenPhase -/

@[simp] theorem rstLow_setGenPhase (g : Gen) (p : Phase) : (s.setGenPhase g p).rstLow = s.rstLow := rfl
@[simp] theorem rate_setGenPhase (g : Gen) (p : Phase) : (s.setGenPhase g p).rate = s.rate := rfl
@[simp] theorem now_setGenPhase (g : Gen) (p : Phase) : (s.setGenPhase g p).now = s.now := rfl
@[simp] theorem coils_setGenPhase (g : Gen) (p : Phase) : (s.setGenPhase g p).coils = s.coils := rfl
@[simp] theorem pans_setGenPhase (g : Gen) (p : Phase) : (s.setGenPhase g p).pans = s.pans := rfl
@[simp] theorem partSeconds_setGenPhase (g : Gen) (p : Phase) : (s.setGenPhase g p).partSeconds = s.partSeconds := rfl
@[simp] theorem candidates_setGenPhase (g : Gen) (p : Phase) : (s.setGenPhase g p).candidates = s.candidates := rfl
@[simp] theorem priority_setGenPhase (g : Gen) (p : Phase) : (s.setGenPhase g p).priority = s.priority := rfl
@[simp] theorem windows_setGenPhase (g : Gen) (p : Phase) : (s.setGenPhase g p).windows = s.windows := rfl
@[simp] theorem levels_setGenPhase (g : Gen) (p : Phase) : (s.setGenPhase g p).levels = s.levels := rfl
@[simp] theorem params_setGenPhase (g : Gen) (p : Phase) : (s.setGenPhase g p).params = s.params := rfl
@[simp] theorem accounts_setGenPhase (g : Gen) (p : Phase) : (s.setGenPhase g p).accounts = s.accounts := rfl
@[simp] theorem desks_setGenPhase (g : Gen) (p : Phase) : (s.setGenPhase g p).desks = s.desks := rfl
@[simp] theorem allocs_setGenPhase (g : Gen) (p : Phase) : (s.setGenPhase g p).allocs = s.allocs := rfl
@[simp] theorem permit_setGenPhase (g : Gen) (p : Phase) : (s.setGenPhase g p).permit = s.permit := rfl
@[simp] theorem safe_setGenPhase (g : Gen) (p : Phase) : (s.setGenPhase g p).safe = s.safe := rfl
@[simp] theorem marks_setGenPhase (g : Gen) (p : Phase) : (s.setGenPhase g p).marks = s.marks := rfl
@[simp] theorem events_setGenPhase (g : Gen) (p : Phase) : (s.setGenPhase g p).events = s.events := rfl
@[simp] theorem eventsLost_setGenPhase (g : Gen) (p : Phase) : (s.setGenPhase g p).eventsLost = s.eventsLost := rfl
@[simp] theorem ports_setGenPhase (g : Gen) (p : Phase) : (s.setGenPhase g p).ports = s.ports := rfl
@[simp] theorem pending_setGenPhase (g : Gen) (p : Phase) : (s.setGenPhase g p).pending = s.pending := rfl
@[simp] theorem freeCount_setGenPhase (g : Gen) (p : Phase) : (s.setGenPhase g p).freeCount = s.freeCount := rfl
@[simp] theorem coil_setGenPhase (g : Gen) (p : Phase) (i : CoilNo) : (s.setGenPhase g p).coil i = s.coil i := rfl
@[simp] theorem pan_setGenPhase (g : Gen) (p : Phase) (i : Slot) : (s.setGenPhase g p).pan i = s.pan i := rfl
@[simp] theorem partSecond_setGenPhase (g : Gen) (p : Phase) (i : Slot) : (s.setGenPhase g p).partSecond i = s.partSecond i := rfl
@[simp] theorem window_setGenPhase (g : Gen) (p : Phase) (i : WindowNo) : (s.setGenPhase g p).window i = s.window i := rfl
@[simp] theorem account_setGenPhase (g : Gen) (p : Phase) (i : Phase) : (s.setGenPhase g p).account i = s.account i := rfl
@[simp] theorem desk_setGenPhase (g : Gen) (p : Phase) (i : Gen) : (s.setGenPhase g p).desk i = s.desk i := rfl
@[simp] theorem alloc_setGenPhase (g : Gen) (p : Phase) (i : Gen) : (s.setGenPhase g p).alloc i = s.alloc i := rfl
@[simp] theorem port_setGenPhase (g : Gen) (p : Phase) (i : Link) : (s.setGenPhase g p).port i = s.port i := rfl

/-! ### setAccount -/

@[simp] theorem rstLow_setAccount (p : Phase) (a : Account) : (s.setAccount p a).rstLow = s.rstLow := rfl
@[simp] theorem rate_setAccount (p : Phase) (a : Account) : (s.setAccount p a).rate = s.rate := rfl
@[simp] theorem now_setAccount (p : Phase) (a : Account) : (s.setAccount p a).now = s.now := rfl
@[simp] theorem coils_setAccount (p : Phase) (a : Account) : (s.setAccount p a).coils = s.coils := rfl
@[simp] theorem pans_setAccount (p : Phase) (a : Account) : (s.setAccount p a).pans = s.pans := rfl
@[simp] theorem partSeconds_setAccount (p : Phase) (a : Account) : (s.setAccount p a).partSeconds = s.partSeconds := rfl
@[simp] theorem candidates_setAccount (p : Phase) (a : Account) : (s.setAccount p a).candidates = s.candidates := rfl
@[simp] theorem priority_setAccount (p : Phase) (a : Account) : (s.setAccount p a).priority = s.priority := rfl
@[simp] theorem windows_setAccount (p : Phase) (a : Account) : (s.setAccount p a).windows = s.windows := rfl
@[simp] theorem levels_setAccount (p : Phase) (a : Account) : (s.setAccount p a).levels = s.levels := rfl
@[simp] theorem params_setAccount (p : Phase) (a : Account) : (s.setAccount p a).params = s.params := rfl
@[simp] theorem phaseOf_setAccount (p : Phase) (a : Account) : (s.setAccount p a).phaseOf = s.phaseOf := rfl
@[simp] theorem desks_setAccount (p : Phase) (a : Account) : (s.setAccount p a).desks = s.desks := rfl
@[simp] theorem allocs_setAccount (p : Phase) (a : Account) : (s.setAccount p a).allocs = s.allocs := rfl
@[simp] theorem permit_setAccount (p : Phase) (a : Account) : (s.setAccount p a).permit = s.permit := rfl
@[simp] theorem safe_setAccount (p : Phase) (a : Account) : (s.setAccount p a).safe = s.safe := rfl
@[simp] theorem marks_setAccount (p : Phase) (a : Account) : (s.setAccount p a).marks = s.marks := rfl
@[simp] theorem events_setAccount (p : Phase) (a : Account) : (s.setAccount p a).events = s.events := rfl
@[simp] theorem eventsLost_setAccount (p : Phase) (a : Account) : (s.setAccount p a).eventsLost = s.eventsLost := rfl
@[simp] theorem ports_setAccount (p : Phase) (a : Account) : (s.setAccount p a).ports = s.ports := rfl
@[simp] theorem pending_setAccount (p : Phase) (a : Account) : (s.setAccount p a).pending = s.pending := rfl
@[simp] theorem freeCount_setAccount (p : Phase) (a : Account) : (s.setAccount p a).freeCount = s.freeCount := rfl
@[simp] theorem coil_setAccount (p : Phase) (a : Account) (i : CoilNo) : (s.setAccount p a).coil i = s.coil i := rfl
@[simp] theorem pan_setAccount (p : Phase) (a : Account) (i : Slot) : (s.setAccount p a).pan i = s.pan i := rfl
@[simp] theorem partSecond_setAccount (p : Phase) (a : Account) (i : Slot) : (s.setAccount p a).partSecond i = s.partSecond i := rfl
@[simp] theorem window_setAccount (p : Phase) (a : Account) (i : WindowNo) : (s.setAccount p a).window i = s.window i := rfl
@[simp] theorem genPhase_setAccount (p : Phase) (a : Account) (i : Gen) : (s.setAccount p a).genPhase i = s.genPhase i := rfl
@[simp] theorem desk_setAccount (p : Phase) (a : Account) (i : Gen) : (s.setAccount p a).desk i = s.desk i := rfl
@[simp] theorem alloc_setAccount (p : Phase) (a : Account) (i : Gen) : (s.setAccount p a).alloc i = s.alloc i := rfl
@[simp] theorem port_setAccount (p : Phase) (a : Account) (i : Link) : (s.setAccount p a).port i = s.port i := rfl

/-! ### setDesk -/

@[simp] theorem rstLow_setDesk (g : Gen) (d : Desk) : (s.setDesk g d).rstLow = s.rstLow := rfl
@[simp] theorem rate_setDesk (g : Gen) (d : Desk) : (s.setDesk g d).rate = s.rate := rfl
@[simp] theorem now_setDesk (g : Gen) (d : Desk) : (s.setDesk g d).now = s.now := rfl
@[simp] theorem coils_setDesk (g : Gen) (d : Desk) : (s.setDesk g d).coils = s.coils := rfl
@[simp] theorem pans_setDesk (g : Gen) (d : Desk) : (s.setDesk g d).pans = s.pans := rfl
@[simp] theorem partSeconds_setDesk (g : Gen) (d : Desk) : (s.setDesk g d).partSeconds = s.partSeconds := rfl
@[simp] theorem candidates_setDesk (g : Gen) (d : Desk) : (s.setDesk g d).candidates = s.candidates := rfl
@[simp] theorem priority_setDesk (g : Gen) (d : Desk) : (s.setDesk g d).priority = s.priority := rfl
@[simp] theorem windows_setDesk (g : Gen) (d : Desk) : (s.setDesk g d).windows = s.windows := rfl
@[simp] theorem levels_setDesk (g : Gen) (d : Desk) : (s.setDesk g d).levels = s.levels := rfl
@[simp] theorem params_setDesk (g : Gen) (d : Desk) : (s.setDesk g d).params = s.params := rfl
@[simp] theorem phaseOf_setDesk (g : Gen) (d : Desk) : (s.setDesk g d).phaseOf = s.phaseOf := rfl
@[simp] theorem accounts_setDesk (g : Gen) (d : Desk) : (s.setDesk g d).accounts = s.accounts := rfl
@[simp] theorem allocs_setDesk (g : Gen) (d : Desk) : (s.setDesk g d).allocs = s.allocs := rfl
@[simp] theorem permit_setDesk (g : Gen) (d : Desk) : (s.setDesk g d).permit = s.permit := rfl
@[simp] theorem safe_setDesk (g : Gen) (d : Desk) : (s.setDesk g d).safe = s.safe := rfl
@[simp] theorem marks_setDesk (g : Gen) (d : Desk) : (s.setDesk g d).marks = s.marks := rfl
@[simp] theorem events_setDesk (g : Gen) (d : Desk) : (s.setDesk g d).events = s.events := rfl
@[simp] theorem eventsLost_setDesk (g : Gen) (d : Desk) : (s.setDesk g d).eventsLost = s.eventsLost := rfl
@[simp] theorem ports_setDesk (g : Gen) (d : Desk) : (s.setDesk g d).ports = s.ports := rfl
@[simp] theorem pending_setDesk (g : Gen) (d : Desk) : (s.setDesk g d).pending = s.pending := rfl
@[simp] theorem freeCount_setDesk (g : Gen) (d : Desk) : (s.setDesk g d).freeCount = s.freeCount := rfl
@[simp] theorem coil_setDesk (g : Gen) (d : Desk) (i : CoilNo) : (s.setDesk g d).coil i = s.coil i := rfl
@[simp] theorem pan_setDesk (g : Gen) (d : Desk) (i : Slot) : (s.setDesk g d).pan i = s.pan i := rfl
@[simp] theorem partSecond_setDesk (g : Gen) (d : Desk) (i : Slot) : (s.setDesk g d).partSecond i = s.partSecond i := rfl
@[simp] theorem window_setDesk (g : Gen) (d : Desk) (i : WindowNo) : (s.setDesk g d).window i = s.window i := rfl
@[simp] theorem genPhase_setDesk (g : Gen) (d : Desk) (i : Gen) : (s.setDesk g d).genPhase i = s.genPhase i := rfl
@[simp] theorem account_setDesk (g : Gen) (d : Desk) (i : Phase) : (s.setDesk g d).account i = s.account i := rfl
@[simp] theorem alloc_setDesk (g : Gen) (d : Desk) (i : Gen) : (s.setDesk g d).alloc i = s.alloc i := rfl
@[simp] theorem port_setDesk (g : Gen) (d : Desk) (i : Link) : (s.setDesk g d).port i = s.port i := rfl

/-! ### setAlloc -/

@[simp] theorem rstLow_setAlloc (g : Gen) (a : Alloc) : (s.setAlloc g a).rstLow = s.rstLow := rfl
@[simp] theorem rate_setAlloc (g : Gen) (a : Alloc) : (s.setAlloc g a).rate = s.rate := rfl
@[simp] theorem now_setAlloc (g : Gen) (a : Alloc) : (s.setAlloc g a).now = s.now := rfl
@[simp] theorem coils_setAlloc (g : Gen) (a : Alloc) : (s.setAlloc g a).coils = s.coils := rfl
@[simp] theorem pans_setAlloc (g : Gen) (a : Alloc) : (s.setAlloc g a).pans = s.pans := rfl
@[simp] theorem partSeconds_setAlloc (g : Gen) (a : Alloc) : (s.setAlloc g a).partSeconds = s.partSeconds := rfl
@[simp] theorem candidates_setAlloc (g : Gen) (a : Alloc) : (s.setAlloc g a).candidates = s.candidates := rfl
@[simp] theorem priority_setAlloc (g : Gen) (a : Alloc) : (s.setAlloc g a).priority = s.priority := rfl
@[simp] theorem windows_setAlloc (g : Gen) (a : Alloc) : (s.setAlloc g a).windows = s.windows := rfl
@[simp] theorem levels_setAlloc (g : Gen) (a : Alloc) : (s.setAlloc g a).levels = s.levels := rfl
@[simp] theorem params_setAlloc (g : Gen) (a : Alloc) : (s.setAlloc g a).params = s.params := rfl
@[simp] theorem phaseOf_setAlloc (g : Gen) (a : Alloc) : (s.setAlloc g a).phaseOf = s.phaseOf := rfl
@[simp] theorem accounts_setAlloc (g : Gen) (a : Alloc) : (s.setAlloc g a).accounts = s.accounts := rfl
@[simp] theorem desks_setAlloc (g : Gen) (a : Alloc) : (s.setAlloc g a).desks = s.desks := rfl
@[simp] theorem permit_setAlloc (g : Gen) (a : Alloc) : (s.setAlloc g a).permit = s.permit := rfl
@[simp] theorem safe_setAlloc (g : Gen) (a : Alloc) : (s.setAlloc g a).safe = s.safe := rfl
@[simp] theorem marks_setAlloc (g : Gen) (a : Alloc) : (s.setAlloc g a).marks = s.marks := rfl
@[simp] theorem events_setAlloc (g : Gen) (a : Alloc) : (s.setAlloc g a).events = s.events := rfl
@[simp] theorem eventsLost_setAlloc (g : Gen) (a : Alloc) : (s.setAlloc g a).eventsLost = s.eventsLost := rfl
@[simp] theorem ports_setAlloc (g : Gen) (a : Alloc) : (s.setAlloc g a).ports = s.ports := rfl
@[simp] theorem pending_setAlloc (g : Gen) (a : Alloc) : (s.setAlloc g a).pending = s.pending := rfl
@[simp] theorem freeCount_setAlloc (g : Gen) (a : Alloc) : (s.setAlloc g a).freeCount = s.freeCount := rfl
@[simp] theorem coil_setAlloc (g : Gen) (a : Alloc) (i : CoilNo) : (s.setAlloc g a).coil i = s.coil i := rfl
@[simp] theorem pan_setAlloc (g : Gen) (a : Alloc) (i : Slot) : (s.setAlloc g a).pan i = s.pan i := rfl
@[simp] theorem partSecond_setAlloc (g : Gen) (a : Alloc) (i : Slot) : (s.setAlloc g a).partSecond i = s.partSecond i := rfl
@[simp] theorem window_setAlloc (g : Gen) (a : Alloc) (i : WindowNo) : (s.setAlloc g a).window i = s.window i := rfl
@[simp] theorem genPhase_setAlloc (g : Gen) (a : Alloc) (i : Gen) : (s.setAlloc g a).genPhase i = s.genPhase i := rfl
@[simp] theorem account_setAlloc (g : Gen) (a : Alloc) (i : Phase) : (s.setAlloc g a).account i = s.account i := rfl
@[simp] theorem desk_setAlloc (g : Gen) (a : Alloc) (i : Gen) : (s.setAlloc g a).desk i = s.desk i := rfl
@[simp] theorem port_setAlloc (g : Gen) (a : Alloc) (i : Link) : (s.setAlloc g a).port i = s.port i := rfl

/-! ### setPort -/

@[simp] theorem rstLow_setPort (l : Link) (p : Port) : (s.setPort l p).rstLow = s.rstLow := rfl
@[simp] theorem rate_setPort (l : Link) (p : Port) : (s.setPort l p).rate = s.rate := rfl
@[simp] theorem now_setPort (l : Link) (p : Port) : (s.setPort l p).now = s.now := rfl
@[simp] theorem coils_setPort (l : Link) (p : Port) : (s.setPort l p).coils = s.coils := rfl
@[simp] theorem pans_setPort (l : Link) (p : Port) : (s.setPort l p).pans = s.pans := rfl
@[simp] theorem partSeconds_setPort (l : Link) (p : Port) : (s.setPort l p).partSeconds = s.partSeconds := rfl
@[simp] theorem candidates_setPort (l : Link) (p : Port) : (s.setPort l p).candidates = s.candidates := rfl
@[simp] theorem priority_setPort (l : Link) (p : Port) : (s.setPort l p).priority = s.priority := rfl
@[simp] theorem windows_setPort (l : Link) (p : Port) : (s.setPort l p).windows = s.windows := rfl
@[simp] theorem levels_setPort (l : Link) (p : Port) : (s.setPort l p).levels = s.levels := rfl
@[simp] theorem params_setPort (l : Link) (p : Port) : (s.setPort l p).params = s.params := rfl
@[simp] theorem phaseOf_setPort (l : Link) (p : Port) : (s.setPort l p).phaseOf = s.phaseOf := rfl
@[simp] theorem accounts_setPort (l : Link) (p : Port) : (s.setPort l p).accounts = s.accounts := rfl
@[simp] theorem desks_setPort (l : Link) (p : Port) : (s.setPort l p).desks = s.desks := rfl
@[simp] theorem allocs_setPort (l : Link) (p : Port) : (s.setPort l p).allocs = s.allocs := rfl
@[simp] theorem permit_setPort (l : Link) (p : Port) : (s.setPort l p).permit = s.permit := rfl
@[simp] theorem safe_setPort (l : Link) (p : Port) : (s.setPort l p).safe = s.safe := rfl
@[simp] theorem marks_setPort (l : Link) (p : Port) : (s.setPort l p).marks = s.marks := rfl
@[simp] theorem events_setPort (l : Link) (p : Port) : (s.setPort l p).events = s.events := rfl
@[simp] theorem eventsLost_setPort (l : Link) (p : Port) : (s.setPort l p).eventsLost = s.eventsLost := rfl
@[simp] theorem pending_setPort (l : Link) (p : Port) : (s.setPort l p).pending = s.pending := rfl
@[simp] theorem freeCount_setPort (l : Link) (p : Port) : (s.setPort l p).freeCount = s.freeCount := rfl
@[simp] theorem coil_setPort (l : Link) (p : Port) (i : CoilNo) : (s.setPort l p).coil i = s.coil i := rfl
@[simp] theorem pan_setPort (l : Link) (p : Port) (i : Slot) : (s.setPort l p).pan i = s.pan i := rfl
@[simp] theorem partSecond_setPort (l : Link) (p : Port) (i : Slot) : (s.setPort l p).partSecond i = s.partSecond i := rfl
@[simp] theorem window_setPort (l : Link) (p : Port) (i : WindowNo) : (s.setPort l p).window i = s.window i := rfl
@[simp] theorem genPhase_setPort (l : Link) (p : Port) (i : Gen) : (s.setPort l p).genPhase i = s.genPhase i := rfl
@[simp] theorem account_setPort (l : Link) (p : Port) (i : Phase) : (s.setPort l p).account i = s.account i := rfl
@[simp] theorem desk_setPort (l : Link) (p : Port) (i : Gen) : (s.setPort l p).desk i = s.desk i := rfl
@[simp] theorem alloc_setPort (l : Link) (p : Port) (i : Gen) : (s.setPort l p).alloc i = s.alloc i := rfl

/-! ### setMarks -/

@[simp] theorem rstLow_setMarks (m : TableMarks) : (s.setMarks m).rstLow = s.rstLow := rfl
@[simp] theorem rate_setMarks (m : TableMarks) : (s.setMarks m).rate = s.rate := rfl
@[simp] theorem now_setMarks (m : TableMarks) : (s.setMarks m).now = s.now := rfl
@[simp] theorem coils_setMarks (m : TableMarks) : (s.setMarks m).coils = s.coils := rfl
@[simp] theorem pans_setMarks (m : TableMarks) : (s.setMarks m).pans = s.pans := rfl
@[simp] theorem partSeconds_setMarks (m : TableMarks) : (s.setMarks m).partSeconds = s.partSeconds := rfl
@[simp] theorem candidates_setMarks (m : TableMarks) : (s.setMarks m).candidates = s.candidates := rfl
@[simp] theorem priority_setMarks (m : TableMarks) : (s.setMarks m).priority = s.priority := rfl
@[simp] theorem windows_setMarks (m : TableMarks) : (s.setMarks m).windows = s.windows := rfl
@[simp] theorem levels_setMarks (m : TableMarks) : (s.setMarks m).levels = s.levels := rfl
@[simp] theorem params_setMarks (m : TableMarks) : (s.setMarks m).params = s.params := rfl
@[simp] theorem phaseOf_setMarks (m : TableMarks) : (s.setMarks m).phaseOf = s.phaseOf := rfl
@[simp] theorem accounts_setMarks (m : TableMarks) : (s.setMarks m).accounts = s.accounts := rfl
@[simp] theorem desks_setMarks (m : TableMarks) : (s.setMarks m).desks = s.desks := rfl
@[simp] theorem allocs_setMarks (m : TableMarks) : (s.setMarks m).allocs = s.allocs := rfl
@[simp] theorem permit_setMarks (m : TableMarks) : (s.setMarks m).permit = s.permit := rfl
@[simp] theorem safe_setMarks (m : TableMarks) : (s.setMarks m).safe = s.safe := rfl
@[simp] theorem events_setMarks (m : TableMarks) : (s.setMarks m).events = s.events := rfl
@[simp] theorem eventsLost_setMarks (m : TableMarks) : (s.setMarks m).eventsLost = s.eventsLost := rfl
@[simp] theorem ports_setMarks (m : TableMarks) : (s.setMarks m).ports = s.ports := rfl
@[simp] theorem pending_setMarks (m : TableMarks) : (s.setMarks m).pending = s.pending := rfl
@[simp] theorem freeCount_setMarks (m : TableMarks) : (s.setMarks m).freeCount = s.freeCount := rfl
@[simp] theorem coil_setMarks (m : TableMarks) (i : CoilNo) : (s.setMarks m).coil i = s.coil i := rfl
@[simp] theorem pan_setMarks (m : TableMarks) (i : Slot) : (s.setMarks m).pan i = s.pan i := rfl
@[simp] theorem partSecond_setMarks (m : TableMarks) (i : Slot) : (s.setMarks m).partSecond i = s.partSecond i := rfl
@[simp] theorem window_setMarks (m : TableMarks) (i : WindowNo) : (s.setMarks m).window i = s.window i := rfl
@[simp] theorem genPhase_setMarks (m : TableMarks) (i : Gen) : (s.setMarks m).genPhase i = s.genPhase i := rfl
@[simp] theorem account_setMarks (m : TableMarks) (i : Phase) : (s.setMarks m).account i = s.account i := rfl
@[simp] theorem desk_setMarks (m : TableMarks) (i : Gen) : (s.setMarks m).desk i = s.desk i := rfl
@[simp] theorem alloc_setMarks (m : TableMarks) (i : Gen) : (s.setMarks m).alloc i = s.alloc i := rfl
@[simp] theorem port_setMarks (m : TableMarks) (i : Link) : (s.setMarks m).port i = s.port i := rfl

@[simp] theorem marks_setMarks_self (m : TableMarks) : (s.setMarks m).marks = m := rfl

/-! ### The record replaced -/

@[simp] theorem coil_setCoil_self (c : CoilNo) (r : Coil) : (s.setCoil c r).coil c = r := by
  simp [coil, setCoil]

theorem coil_setCoil_ne (c : CoilNo) (r : Coil) (i : CoilNo) (h : i ≠ c) : (s.setCoil c r).coil i = s.coil i := by
  have h' : c.val ≠ i.val := fun e => h (Fin.ext e.symm)
  simp [coil, setCoil, h']

theorem coil_setCoil (c : CoilNo) (r : Coil) (i : CoilNo) : (s.setCoil c r).coil i = if i = c then r else s.coil i := by
  by_cases h : i = c
  · subst h; simp
  · simp [h, coil_setCoil_ne s c r i h]

@[simp] theorem pan_setPan_self (c : Slot) (r : Pan) : (s.setPan c r).pan c = r := by
  simp [pan, setPan]

theorem pan_setPan_ne (c : Slot) (r : Pan) (i : Slot) (h : i ≠ c) : (s.setPan c r).pan i = s.pan i := by
  have h' : c.val ≠ i.val := fun e => h (Fin.ext e.symm)
  simp [pan, setPan, h']

theorem pan_setPan (c : Slot) (r : Pan) (i : Slot) : (s.setPan c r).pan i = if i = c then r else s.pan i := by
  by_cases h : i = c
  · subst h; simp
  · simp [h, pan_setPan_ne s c r i h]

@[simp] theorem partSecond_setPartSecond_self (c : Slot) (r : Nat) : (s.setPartSecond c r).partSecond c = r := by
  simp [partSecond, setPartSecond]

theorem partSecond_setPartSecond_ne (c : Slot) (r : Nat) (i : Slot) (h : i ≠ c) : (s.setPartSecond c r).partSecond i = s.partSecond i := by
  have h' : c.val ≠ i.val := fun e => h (Fin.ext e.symm)
  simp [partSecond, setPartSecond, h']

theorem partSecond_setPartSecond (c : Slot) (r : Nat) (i : Slot) : (s.setPartSecond c r).partSecond i = if i = c then r else s.partSecond i := by
  by_cases h : i = c
  · subst h; simp
  · simp [h, partSecond_setPartSecond_ne s c r i h]

@[simp] theorem window_setWindow_self (c : WindowNo) (r : Window) : (s.setWindow c r).window c = r := by
  simp [window, setWindow]

theorem window_setWindow_ne (c : WindowNo) (r : Window) (i : WindowNo) (h : i ≠ c) : (s.setWindow c r).window i = s.window i := by
  have h' : c.val ≠ i.val := fun e => h (Fin.ext e.symm)
  simp [window, setWindow, h']

theorem window_setWindow (c : WindowNo) (r : Window) (i : WindowNo) : (s.setWindow c r).window i = if i = c then r else s.window i := by
  by_cases h : i = c
  · subst h; simp
  · simp [h, window_setWindow_ne s c r i h]

@[simp] theorem genPhase_setGenPhase_self (c : Gen) (r : Phase) : (s.setGenPhase c r).genPhase c = r := by
  simp [genPhase, setGenPhase]

theorem genPhase_setGenPhase_ne (c : Gen) (r : Phase) (i : Gen) (h : i ≠ c) : (s.setGenPhase c r).genPhase i = s.genPhase i := by
  have h' : c.val ≠ i.val := fun e => h (Fin.ext e.symm)
  simp [genPhase, setGenPhase, h']

theorem genPhase_setGenPhase (c : Gen) (r : Phase) (i : Gen) : (s.setGenPhase c r).genPhase i = if i = c then r else s.genPhase i := by
  by_cases h : i = c
  · subst h; simp
  · simp [h, genPhase_setGenPhase_ne s c r i h]

@[simp] theorem desk_setDesk_self (c : Gen) (r : Desk) : (s.setDesk c r).desk c = r := by
  simp [desk, setDesk]

theorem desk_setDesk_ne (c : Gen) (r : Desk) (i : Gen) (h : i ≠ c) : (s.setDesk c r).desk i = s.desk i := by
  have h' : c.val ≠ i.val := fun e => h (Fin.ext e.symm)
  simp [desk, setDesk, h']

theorem desk_setDesk (c : Gen) (r : Desk) (i : Gen) : (s.setDesk c r).desk i = if i = c then r else s.desk i := by
  by_cases h : i = c
  · subst h; simp
  · simp [h, desk_setDesk_ne s c r i h]

@[simp] theorem alloc_setAlloc_self (c : Gen) (r : Alloc) : (s.setAlloc c r).alloc c = r := by
  simp [alloc, setAlloc]

theorem alloc_setAlloc_ne (c : Gen) (r : Alloc) (i : Gen) (h : i ≠ c) : (s.setAlloc c r).alloc i = s.alloc i := by
  have h' : c.val ≠ i.val := fun e => h (Fin.ext e.symm)
  simp [alloc, setAlloc, h']

theorem alloc_setAlloc (c : Gen) (r : Alloc) (i : Gen) : (s.setAlloc c r).alloc i = if i = c then r else s.alloc i := by
  by_cases h : i = c
  · subst h; simp
  · simp [h, alloc_setAlloc_ne s c r i h]

theorem phaseIndex_inj {p q : Phase} (h : phaseIndex p = phaseIndex q) : p = q := by
  cases p <;> cases q <;> first | rfl | exact absurd h (by decide)

theorem linkIndex_inj {l m : Link} (h : linkIndex l = linkIndex m) : l = m := by
  have h' : (linkIndex l).val = (linkIndex m).val := congrArg Fin.val h
  cases l <;> cases m <;> simp only [linkIndex] at h' <;> first
    | rfl
    | (congr 1; apply Fin.ext; omega)
    | (rename_i g; have := g.isLt; simp at h' <;> omega)
    | (simp at h')

@[simp] theorem account_setAccount_self (c : Phase) (r : Account) : (s.setAccount c r).account c = r := by
  simp [account, setAccount]

theorem account_setAccount_ne (c : Phase) (r : Account) (i : Phase) (h : i ≠ c) :
    (s.setAccount c r).account i = s.account i := by
  have h' : (phaseIndex c).val ≠ (phaseIndex i).val := fun e => h (phaseIndex_inj (Fin.ext e.symm))
  simp [account, setAccount, h']

theorem account_setAccount (c : Phase) (r : Account) (i : Phase) :
    (s.setAccount c r).account i = if i = c then r else s.account i := by
  by_cases h : i = c
  · subst h; simp
  · simp [h, account_setAccount_ne s c r i h]

@[simp] theorem port_setPort_self (c : Link) (r : Port) : (s.setPort c r).port c = r := by
  simp [port, setPort]

theorem port_setPort_ne (c : Link) (r : Port) (i : Link) (h : i ≠ c) : (s.setPort c r).port i = s.port i := by
  have h' : (linkIndex c).val ≠ (linkIndex i).val := fun e => h (linkIndex_inj (Fin.ext e.symm))
  simp [port, setPort, h']

theorem port_setPort (c : Link) (r : Port) (i : Link) :
    (s.setPort c r).port i = if i = c then r else s.port i := by
  by_cases h : i = c
  · subst h; simp
  · simp [h, port_setPort_ne s c r i h]

/-! ### Posting an event -/

@[simp] theorem rstLow_postEvent (e : Event) : (s.postEvent e).rstLow = s.rstLow := by
  unfold postEvent; split <;> [rfl; (split <;> rfl)]
@[simp] theorem rate_postEvent (e : Event) : (s.postEvent e).rate = s.rate := by
  unfold postEvent; split <;> [rfl; (split <;> rfl)]
@[simp] theorem now_postEvent (e : Event) : (s.postEvent e).now = s.now := by
  unfold postEvent; split <;> [rfl; (split <;> rfl)]
@[simp] theorem coils_postEvent (e : Event) : (s.postEvent e).coils = s.coils := by
  unfold postEvent; split <;> [rfl; (split <;> rfl)]
@[simp] theorem pans_postEvent (e : Event) : (s.postEvent e).pans = s.pans := by
  unfold postEvent; split <;> [rfl; (split <;> rfl)]
@[simp] theorem partSeconds_postEvent (e : Event) : (s.postEvent e).partSeconds = s.partSeconds := by
  unfold postEvent; split <;> [rfl; (split <;> rfl)]
@[simp] theorem candidates_postEvent (e : Event) : (s.postEvent e).candidates = s.candidates := by
  unfold postEvent; split <;> [rfl; (split <;> rfl)]
@[simp] theorem priority_postEvent (e : Event) : (s.postEvent e).priority = s.priority := by
  unfold postEvent; split <;> [rfl; (split <;> rfl)]
@[simp] theorem windows_postEvent (e : Event) : (s.postEvent e).windows = s.windows := by
  unfold postEvent; split <;> [rfl; (split <;> rfl)]
@[simp] theorem levels_postEvent (e : Event) : (s.postEvent e).levels = s.levels := by
  unfold postEvent; split <;> [rfl; (split <;> rfl)]
@[simp] theorem params_postEvent (e : Event) : (s.postEvent e).params = s.params := by
  unfold postEvent; split <;> [rfl; (split <;> rfl)]
@[simp] theorem phaseOf_postEvent (e : Event) : (s.postEvent e).phaseOf = s.phaseOf := by
  unfold postEvent; split <;> [rfl; (split <;> rfl)]
@[simp] theorem accounts_postEvent (e : Event) : (s.postEvent e).accounts = s.accounts := by
  unfold postEvent; split <;> [rfl; (split <;> rfl)]
@[simp] theorem desks_postEvent (e : Event) : (s.postEvent e).desks = s.desks := by
  unfold postEvent; split <;> [rfl; (split <;> rfl)]
@[simp] theorem allocs_postEvent (e : Event) : (s.postEvent e).allocs = s.allocs := by
  unfold postEvent; split <;> [rfl; (split <;> rfl)]
@[simp] theorem permit_postEvent (e : Event) : (s.postEvent e).permit = s.permit := by
  unfold postEvent; split <;> [rfl; (split <;> rfl)]
@[simp] theorem safe_postEvent (e : Event) : (s.postEvent e).safe = s.safe := by
  unfold postEvent; split <;> [rfl; (split <;> rfl)]
@[simp] theorem marks_postEvent (e : Event) : (s.postEvent e).marks = s.marks := by
  unfold postEvent; split <;> [rfl; (split <;> rfl)]
@[simp] theorem ports_postEvent (e : Event) : (s.postEvent e).ports = s.ports := by
  unfold postEvent; split <;> [rfl; (split <;> rfl)]
@[simp] theorem pending_postEvent (e : Event) : (s.postEvent e).pending = s.pending := by
  unfold postEvent; split <;> [rfl; (split <;> rfl)]
@[simp] theorem freeCount_postEvent (e : Event) : (s.postEvent e).freeCount = s.freeCount := by
  unfold postEvent; split <;> [rfl; (split <;> rfl)]
@[simp] theorem coil_postEvent (e : Event) (i : CoilNo) : (s.postEvent e).coil i = s.coil i := by
  simp [coil]
@[simp] theorem pan_postEvent (e : Event) (i : Slot) : (s.postEvent e).pan i = s.pan i := by
  simp [pan]
@[simp] theorem partSecond_postEvent (e : Event) (i : Slot) : (s.postEvent e).partSecond i = s.partSecond i := by
  simp [partSecond]
@[simp] theorem window_postEvent (e : Event) (i : WindowNo) : (s.postEvent e).window i = s.window i := by
  simp [window]
@[simp] theorem genPhase_postEvent (e : Event) (i : Gen) : (s.postEvent e).genPhase i = s.genPhase i := by
  simp [genPhase]
@[simp] theorem account_postEvent (e : Event) (i : Phase) : (s.postEvent e).account i = s.account i := by
  simp [account]
@[simp] theorem desk_postEvent (e : Event) (i : Gen) : (s.postEvent e).desk i = s.desk i := by
  simp [desk]
@[simp] theorem alloc_postEvent (e : Event) (i : Gen) : (s.postEvent e).alloc i = s.alloc i := by
  simp [alloc]
@[simp] theorem port_postEvent (e : Event) (i : Link) : (s.postEvent e).port i = s.port i := by
  simp [port]

/-! ### Writing a checked record -/

@[simp] theorem rstLow_writeCoil (c : CoilNo) (r : Coil) : (s.writeCoil c r).rstLow = s.rstLow := rfl
@[simp] theorem rate_writeCoil (c : CoilNo) (r : Coil) : (s.writeCoil c r).rate = s.rate := rfl
@[simp] theorem now_writeCoil (c : CoilNo) (r : Coil) : (s.writeCoil c r).now = s.now := rfl
@[simp] theorem pans_writeCoil (c : CoilNo) (r : Coil) : (s.writeCoil c r).pans = s.pans := rfl
@[simp] theorem partSeconds_writeCoil (c : CoilNo) (r : Coil) : (s.writeCoil c r).partSeconds = s.partSeconds := rfl
@[simp] theorem candidates_writeCoil (c : CoilNo) (r : Coil) : (s.writeCoil c r).candidates = s.candidates := rfl
@[simp] theorem priority_writeCoil (c : CoilNo) (r : Coil) : (s.writeCoil c r).priority = s.priority := rfl
@[simp] theorem windows_writeCoil (c : CoilNo) (r : Coil) : (s.writeCoil c r).windows = s.windows := rfl
@[simp] theorem levels_writeCoil (c : CoilNo) (r : Coil) : (s.writeCoil c r).levels = s.levels := rfl
@[simp] theorem params_writeCoil (c : CoilNo) (r : Coil) : (s.writeCoil c r).params = s.params := rfl
@[simp] theorem phaseOf_writeCoil (c : CoilNo) (r : Coil) : (s.writeCoil c r).phaseOf = s.phaseOf := rfl
@[simp] theorem accounts_writeCoil (c : CoilNo) (r : Coil) : (s.writeCoil c r).accounts = s.accounts := rfl
@[simp] theorem desks_writeCoil (c : CoilNo) (r : Coil) : (s.writeCoil c r).desks = s.desks := rfl
@[simp] theorem allocs_writeCoil (c : CoilNo) (r : Coil) : (s.writeCoil c r).allocs = s.allocs := rfl
@[simp] theorem permit_writeCoil (c : CoilNo) (r : Coil) : (s.writeCoil c r).permit = s.permit := rfl
@[simp] theorem safe_writeCoil (c : CoilNo) (r : Coil) : (s.writeCoil c r).safe = s.safe := rfl
@[simp] theorem events_writeCoil (c : CoilNo) (r : Coil) : (s.writeCoil c r).events = s.events := rfl
@[simp] theorem eventsLost_writeCoil (c : CoilNo) (r : Coil) : (s.writeCoil c r).eventsLost = s.eventsLost := rfl
@[simp] theorem ports_writeCoil (c : CoilNo) (r : Coil) : (s.writeCoil c r).ports = s.ports := rfl
@[simp] theorem pending_writeCoil (c : CoilNo) (r : Coil) : (s.writeCoil c r).pending = s.pending := rfl
@[simp] theorem freeCount_writeCoil (c : CoilNo) (r : Coil) : (s.writeCoil c r).freeCount = s.freeCount := rfl
@[simp] theorem pan_writeCoil (c : CoilNo) (r : Coil) (i : Slot) : (s.writeCoil c r).pan i = s.pan i := rfl
@[simp] theorem partSecond_writeCoil (c : CoilNo) (r : Coil) (i : Slot) : (s.writeCoil c r).partSecond i = s.partSecond i := rfl
@[simp] theorem window_writeCoil (c : CoilNo) (r : Coil) (i : WindowNo) : (s.writeCoil c r).window i = s.window i := rfl
@[simp] theorem genPhase_writeCoil (c : CoilNo) (r : Coil) (i : Gen) : (s.writeCoil c r).genPhase i = s.genPhase i := rfl
@[simp] theorem account_writeCoil (c : CoilNo) (r : Coil) (i : Phase) : (s.writeCoil c r).account i = s.account i := rfl
@[simp] theorem desk_writeCoil (c : CoilNo) (r : Coil) (i : Gen) : (s.writeCoil c r).desk i = s.desk i := rfl
@[simp] theorem alloc_writeCoil (c : CoilNo) (r : Coil) (i : Gen) : (s.writeCoil c r).alloc i = s.alloc i := rfl
@[simp] theorem port_writeCoil (c : CoilNo) (r : Coil) (i : Link) : (s.writeCoil c r).port i = s.port i := rfl

@[simp] theorem rstLow_writePan (n : Slot) (p : Pan) : (s.writePan n p).rstLow = s.rstLow := rfl
@[simp] theorem rate_writePan (n : Slot) (p : Pan) : (s.writePan n p).rate = s.rate := rfl
@[simp] theorem now_writePan (n : Slot) (p : Pan) : (s.writePan n p).now = s.now := rfl
@[simp] theorem coils_writePan (n : Slot) (p : Pan) : (s.writePan n p).coils = s.coils := rfl
@[simp] theorem partSeconds_writePan (n : Slot) (p : Pan) : (s.writePan n p).partSeconds = s.partSeconds := rfl
@[simp] theorem candidates_writePan (n : Slot) (p : Pan) : (s.writePan n p).candidates = s.candidates := rfl
@[simp] theorem priority_writePan (n : Slot) (p : Pan) : (s.writePan n p).priority = s.priority := rfl
@[simp] theorem windows_writePan (n : Slot) (p : Pan) : (s.writePan n p).windows = s.windows := rfl
@[simp] theorem levels_writePan (n : Slot) (p : Pan) : (s.writePan n p).levels = s.levels := rfl
@[simp] theorem params_writePan (n : Slot) (p : Pan) : (s.writePan n p).params = s.params := rfl
@[simp] theorem phaseOf_writePan (n : Slot) (p : Pan) : (s.writePan n p).phaseOf = s.phaseOf := rfl
@[simp] theorem accounts_writePan (n : Slot) (p : Pan) : (s.writePan n p).accounts = s.accounts := rfl
@[simp] theorem desks_writePan (n : Slot) (p : Pan) : (s.writePan n p).desks = s.desks := rfl
@[simp] theorem allocs_writePan (n : Slot) (p : Pan) : (s.writePan n p).allocs = s.allocs := rfl
@[simp] theorem permit_writePan (n : Slot) (p : Pan) : (s.writePan n p).permit = s.permit := rfl
@[simp] theorem safe_writePan (n : Slot) (p : Pan) : (s.writePan n p).safe = s.safe := rfl
@[simp] theorem events_writePan (n : Slot) (p : Pan) : (s.writePan n p).events = s.events := rfl
@[simp] theorem eventsLost_writePan (n : Slot) (p : Pan) : (s.writePan n p).eventsLost = s.eventsLost := rfl
@[simp] theorem ports_writePan (n : Slot) (p : Pan) : (s.writePan n p).ports = s.ports := rfl
@[simp] theorem pending_writePan (n : Slot) (p : Pan) : (s.writePan n p).pending = s.pending := rfl
@[simp] theorem freeCount_writePan (n : Slot) (p : Pan) : (s.writePan n p).freeCount = s.freeCount := rfl
@[simp] theorem coil_writePan (n : Slot) (p : Pan) (i : CoilNo) : (s.writePan n p).coil i = s.coil i := rfl
@[simp] theorem partSecond_writePan (n : Slot) (p : Pan) (i : Slot) : (s.writePan n p).partSecond i = s.partSecond i := rfl
@[simp] theorem window_writePan (n : Slot) (p : Pan) (i : WindowNo) : (s.writePan n p).window i = s.window i := rfl
@[simp] theorem genPhase_writePan (n : Slot) (p : Pan) (i : Gen) : (s.writePan n p).genPhase i = s.genPhase i := rfl
@[simp] theorem account_writePan (n : Slot) (p : Pan) (i : Phase) : (s.writePan n p).account i = s.account i := rfl
@[simp] theorem desk_writePan (n : Slot) (p : Pan) (i : Gen) : (s.writePan n p).desk i = s.desk i := rfl
@[simp] theorem alloc_writePan (n : Slot) (p : Pan) (i : Gen) : (s.writePan n p).alloc i = s.alloc i := rfl
@[simp] theorem port_writePan (n : Slot) (p : Pan) (i : Link) : (s.writePan n p).port i = s.port i := rfl

theorem coil_writeCoil (c : CoilNo) (r : Coil) (i : CoilNo) :
    (s.writeCoil c r).coil i = if i = c then { r with codeOk := !s.marks.coilMap } else s.coil i := by
  simp [writeCoil, coil_setCoil]

theorem pan_writePan (n : Slot) (p : Pan) (i : Slot) :
    (s.writePan n p).pan i = if i = n then { p with codeOk := !s.marks.panTable } else s.pan i := by
  simp [writePan, pan_setPan]

theorem marks_writeCoil (c : CoilNo) (r : Coil) : (s.writeCoil c r).marks = { s.marks with coilMap := false } := rfl

theorem marks_writePan (n : Slot) (p : Pan) : (s.writePan n p).marks = { s.marks with panTable := false } := rfl

end Sys2Proof.Machine.State
end

