-- ==== Sys2Proof/Laws/Runs.lean ====
section
/-! SUPPORT. What a piece of work can do, said once: it is a path of updates of single records, and it ends as it should or in SAFE at a failed check. -/

namespace Sys2Proof.Machine

/-! ## Single updates and paths -/

/-- How much a piece of work may touch: orders only, the settings of pans too, the tracking of pans too, or what a
request serves too. -/
inductive Scope where
  | orders
  | cooking
  | tracking
  | service
deriving DecidableEq, Repr

/-- A coil with no owner and in no order is left alone. -/
def Scope.leavesIdle (w : Scope) : Prop := w = .orders ∨ w = .cooking

/-- The records agree in what sensing writes. -/
def SameReading (r q : Coil) : Prop := q.coverage = r.coverage ∧ q.hot = r.hot ∧ q.fault = r.fault

/-- Every order held carries a valid code when every order held before did. -/
def KeepsOrderCodes (s t : State) : Prop := (∀ g, (s.desk g).orderOk = true) → ∀ g, (t.desk g).orderOk = true

/-- A desk with no order that is not WAITING: no report and no test of WAITING desks touches it. -/
def Desk.Still (d : Desk) : Prop := d.order = none ∧ ∀ e, d.desk ≠ .waiting e

/-- One update of a record, an event posted, or a change outside the checked records. The desks that may change are
those of the generators in D. -/
inductive Update (w : Scope) (D : Gen → Prop) : State → State → Prop
  | coil (s : State) (c : CoilNo) (r : Coil) (hr : w ≠ .service → SameReading (s.coil c) r)
      (hf : hasRelay c = false → CoilFixed (s.coil c) → CoilFixed r)
      (hi : w.leavesIdle → (s.coil c).state.owner ≠ none ∨ (s.coil c).state.order ≠ none) : Update w D s (s.writeCoil c r)
  | pan (s : State) (n : Slot) (p : Pan) (hp : w = .orders → p.core = (s.pan n).core) : Update w D s (s.writePan n p)
  | post (s : State) (e : Event) : Update w D s (s.postEvent e)
  | order (s : State) (g : Gen) (legs : List Leg) (hg : D g) : Update w D s (s.writeOrder g legs)
  | books (s t : State) (hc : t.coils = s.coils) (hp : t.pans = s.pans) (he : t.events = s.events ∧ t.eventsLost = s.eventsLost)
      (hm : t.marks = s.marks) (hl : t.levels = s.levels) (ho : KeepsOrderCodes s t)
      (hd : ∀ g, ¬ D g → t.desk g = s.desk g ∧ t.alloc g = s.alloc g) (hu : w ≠ .service → Undisturbed s t)
      (hs : w = .orders → t.partSeconds = s.partSeconds ∧ t.candidates = s.candidates ∧ t.priority = s.priority)
      (hk : Unmoved s t) : Update w D s t

/-- A path of updates. -/
inductive Path (w : Scope) (D : Gen → Prop) : State → State → Prop
  | refl (s : State) : Path w D s s
  | snoc {s t u : State} (h : Path w D s t) (step : Update w D t u) : Path w D s u

theorem Path.single {w : Scope} {D : Gen → Prop} {s t : State} (h : Update w D s t) : Path w D s t := .snoc (.refl s) h

theorem Path.trans {w : Scope} {D : Gen → Prop} {s t u : State} (h : Path w D s t) (k : Path w D t u) :
    Path w D s u := by
  induction k with
  | refl => exact h
  | snoc _ step ih => exact .snoc ih step

/-- The code of a record fails. -/
def CheckFails (s : State) : BadRecord → Prop
  | .coil c => (s.coil c).codeOk = false
  | .pan n => (s.pan n).codeOk = false
  | .order g => (s.desk g).orderOk = false
  | .levels => s.levels.codeOk = false

/-- The work follows a path, and ends there or enters SAFE there at a record whose code fails. -/
def Run (w : Scope) (D : Gen → Prop) (s : State) (f : Flow) : Prop :=
  ∃ t, Path w D s t ∧ (f = .ok t ∨ ∃ b, CheckFails t b ∧ f = .safe (enterSafe b t))

/-! ## Putting runs together -/

theorem Run.ok {w : Scope} {D : Gen → Prop} {s t : State} (h : Path w D s t) : Run w D s (.ok t) := ⟨t, h, .inl rfl⟩

theorem Run.here {w : Scope} {D : Gen → Prop} (s : State) : Run w D s (.ok s) := .ok (.refl s)

theorem Run.update {w : Scope} {D : Gen → Prop} {s t : State} (h : Update w D s t) : Run w D s (.ok t) := .ok (.single h)

theorem Flow.andThen_assoc (f : Flow) (k j : Op) : (f.andThen k).andThen j = f.andThen fun s => (k s).andThen j := by
  cases f <;> rfl

theorem Flow.andThen_ok (f : Flow) : f.andThen .ok = f := by cases f <;> rfl

/-- Work after a path. -/
theorem Run.after {w : Scope} {D : Gen → Prop} {s t : State} {f : Flow} (h : Path w D s t) (k : Run w D t f) : Run w D s f := by
  obtain ⟨u, hu, hf⟩ := k
  exact ⟨u, h.trans hu, hf⟩

/-- Work after work, when the second runs from wherever the first ends. -/
theorem Run.bind {w : Scope} {D : Gen → Prop} {s : State} {f : Flow} {k : Op} (h : Run w D s f)
    (hk : ∀ t, Path w D s t → f = .ok t → Run w D t (k t)) : Run w D s (f.andThen k) := by
  obtain ⟨t, ht, rfl | ⟨b, hb, rfl⟩⟩ := h
  · exact .after ht (hk t ht rfl)
  · exact ⟨t, ht, .inr ⟨b, hb, rfl⟩⟩

/-- Work after work that runs from everywhere. -/
theorem Run.andThen {w : Scope} {D : Gen → Prop} {s : State} {f : Flow} {k : Op} (h : Run w D s f) (hk : ∀ t, Run w D t (k t)) :
    Run w D s (f.andThen k) := h.bind fun t _ _ => hk t

theorem Run.forEach {w : Scope} {D : Gen → Prop} {α : Type} {work : α → Op} (h : ∀ x s, Run w D s (work x s)) :
    ∀ (l : List α) (s : State), Run w D s (forEach work l s)
  | [], s => .here s
  | x :: xs, s => (h x s).andThen (Run.forEach h xs)

/-- The same, when the work on an item runs wherever the work so far may have led. -/
theorem Run.forEachFrom {w : Scope} {D : Gen → Prop} {α : Type} {work : α → Op} (s : State)
    (h : ∀ x t, Path w D s t → Run w D t (work x t)) : ∀ (l : List α) (t : State), Path w D s t →
      Run w D t (Machine.forEach work l t)
  | [], t, _ => .here t
  | x :: xs, t, ht => (h x t ht).bind fun u hu _ => Run.forEachFrom s h xs u (ht.trans hu)

theorem Run.doIf {w : Scope} {D : Gen → Prop} {k : Op} (b : Bool) (h : ∀ s, Run w D s (k s)) (s : State) : Run w D s (doIf b k s) := by
  unfold Machine.doIf; split
  · exact h s
  · exact .here s

theorem Run.doIf' {w : Scope} {D : Gen → Prop} {k : Op} (b : Bool) {s : State} (h : Run w D s (k s)) :
    Run w D s (Machine.doIf b k s) := by
  unfold Machine.doIf; split
  · exact h
  · exact .here s

/-! ## Checks and edits -/

theorem run_checkCoil {w : Scope} {D : Gen → Prop} (c : CoilNo) (s : State) : Run w D s (checkCoil c s) := by
  unfold checkCoil; split
  · exact .here s
  · next h => exact ⟨s, .refl s, .inr ⟨.coil c, by simpa [CheckFails] using h, rfl⟩⟩

theorem run_checkPan {w : Scope} {D : Gen → Prop} (n : Slot) (s : State) : Run w D s (checkPan n s) := by
  unfold checkPan; split
  · exact .here s
  · next h => exact ⟨s, .refl s, .inr ⟨.pan n, by simpa [CheckFails] using h, rfl⟩⟩

theorem run_checkOrder {w : Scope} {D : Gen → Prop} (g : Gen) (s : State) : Run w D s (checkOrder g s) := by
  unfold checkOrder; split
  · next o ho =>
    split
    · exact .here s
    · next h => exact ⟨s, .refl s, .inr ⟨.order g, by simpa [CheckFails, Desk.orderOk, ho] using h, rfl⟩⟩
  · exact .here s

theorem run_checkLevels {w : Scope} {D : Gen → Prop} (s : State) : Run w D s (checkLevels s) := by
  unfold checkLevels; split
  · exact .here s
  · next h => exact ⟨s, .refl s, .inr ⟨.levels, by simpa [CheckFails] using h, rfl⟩⟩

theorem checkCoil_ok {c : CoilNo} {s t : State} (h : checkCoil c s = .ok t) : t = s := by
  unfold checkCoil at h; split at h <;> simp_all

theorem checkPan_ok {n : Slot} {s t : State} (h : checkPan n s = .ok t) : t = s := by
  unfold checkPan at h; split at h <;> simp_all

theorem checkOrder_ok {g : Gen} {s t : State} (h : checkOrder g s = .ok t) : t = s := by
  unfold checkOrder at h; split at h
  · split at h <;> simp_all
  · simp_all

theorem run_editCoil {w : Scope} {D : Gen → Prop} (c : CoilNo) (f : Coil → Coil) (s : State)
    (hr : w ≠ .service → SameReading (s.coil c) (f (s.coil c)))
    (hf : hasRelay c = false → CoilFixed (s.coil c) → CoilFixed (f (s.coil c)))
    (hi : w.leavesIdle → (s.coil c).state.owner = none → (s.coil c).state.order = none → f (s.coil c) = s.coil c) :
    Run w D s (editCoil c f s) := by
  unfold editCoil
  refine (run_checkCoil c s).bind fun t _ ht => ?_
  cases checkCoil_ok ht
  split
  · exact .here s
  · next h =>
    refine .update (.coil s c _ hr hf fun hw => ?_)
    by_contra hn
    push Not at hn
    exact h (hi hw hn.1 hn.2)

theorem run_rewriteCoil {w : Scope} {D : Gen → Prop} (c : CoilNo) (f : Coil → Coil) (s : State)
    (hr : w ≠ .service → SameReading (s.coil c) (f (s.coil c)))
    (hf : hasRelay c = false → CoilFixed (s.coil c) → CoilFixed (f (s.coil c))) (hw : ¬ w.leavesIdle) :
    Run w D s (rewriteCoil c f s) := by
  unfold rewriteCoil
  refine (run_checkCoil c s).bind fun t _ ht => ?_
  cases checkCoil_ok ht
  exact .update (.coil s c _ hr hf fun h => absurd h hw)

theorem run_editPan {w : Scope} {D : Gen → Prop} (n : Slot) (f : Pan → Pan) (s : State)
    (hp : w = .orders → (f (s.pan n)).core = (s.pan n).core) : Run w D s (editPan n f s) := by
  unfold editPan
  refine (run_checkPan n s).bind fun t _ ht => ?_
  cases checkPan_ok ht
  split
  · exact .here s
  · exact .update (.pan s n _ hp)

theorem run_rewritePan {w : Scope} {D : Gen → Prop} (n : Slot) (f : Pan → Pan) (s : State)
    (hp : w = .orders → (f (s.pan n)).core = (s.pan n).core) : Run w D s (rewritePan n f s) := by
  unfold rewritePan
  refine (run_checkPan n s).bind fun t _ ht => ?_
  cases checkPan_ok ht
  exact .update (.pan s n _ hp)

/-! ## Undisturbed is an order, and every update of the narrow scopes keeps it -/

theorem Unmoved.refl (s : State) : Unmoved s s := by constructor <;> intros <;> rfl

theorem Unmoved.trans {s t u : State} (h : Unmoved s t) (k : Unmoved t u) : Unmoved s u where
  rstLow := k.rstLow.trans h.rstLow
  rate := k.rate.trans h.rate
  now := k.now.trans h.now
  windows := k.windows.trans h.windows
  watts := k.watts.trans h.watts
  params := k.params.trans h.params
  phaseOf := k.phaseOf.trans h.phaseOf
  permit := k.permit.trans h.permit
  safe := k.safe.trans h.safe
  pending := k.pending.trans h.pending
  freeCount := k.freeCount.trans h.freeCount
  target p := (k.target p).trans (h.target p)
  overrun l := (k.overrun l).trans (h.overrun l)
  forcedBad l := (k.forcedBad l).trans (h.forcedBad l)

/-- What is undisturbed is unmoved. -/
theorem Undisturbed.unmoved {s t : State} (h : Undisturbed s t) : Unmoved s t :=
  ⟨h.rstLow, h.rate, h.now, h.windows, h.watts, h.params, h.phaseOf, h.permit, h.safe, h.pending, h.freeCount, h.target,
    fun l => by simp only [State.port, h.ports], fun l => by simp only [State.port, h.ports]⟩

theorem Undisturbed.refl (s : State) : Undisturbed s s := by constructor <;> intros <;> rfl

theorem Undisturbed.trans {s t u : State} (h : Undisturbed s t) (k : Undisturbed t u) : Undisturbed s u where
  rstLow := k.rstLow.trans h.rstLow
  rate := k.rate.trans h.rate
  now := k.now.trans h.now
  windows := k.windows.trans h.windows
  watts := k.watts.trans h.watts
  params := k.params.trans h.params
  phaseOf := k.phaseOf.trans h.phaseOf
  permit := k.permit.trans h.permit
  safe := k.safe.trans h.safe
  ports := k.ports.trans h.ports
  pending := k.pending.trans h.pending
  freeCount := k.freeCount.trans h.freeCount
  coverage c := (k.coverage c).trans (h.coverage c)
  hot c := (k.hot c).trans (h.hot c)
  fault c := (k.fault c).trans (h.fault c)
  target p := (k.target p).trans (h.target p)
  lastConfirmed g := (k.lastConfirmed g).trans (h.lastConfirmed g)
  out g := (k.out g).trans (h.out g)
  outState g hg := (k.outState g ((h.out g).trans hg)).trans (h.outState g hg)

theorem OrderWork.refl (s : State) : OrderWork s s := ⟨.refl s, rfl, rfl, rfl, fun _ => rfl, fun _ _ _ => rfl⟩

theorem OrderWork.trans {s t u : State} (h : OrderWork s t) (k : OrderWork t u) : OrderWork s u where
  toUndisturbed := h.toUndisturbed.trans k.toUndisturbed
  partSeconds := k.partSeconds.trans h.partSeconds
  candidates := k.candidates.trans h.candidates
  priority := k.priority.trans h.priority
  pan n := (k.pan n).trans (h.pan n)
  idle c ho hn := by
    have e := h.idle c ho hn
    exact (k.idle c (by rw [e]; exact ho) (by rw [e]; exact hn)).trans e

theorem Pan.core_codeOk (p : Pan) (b : Bool) : ({ p with codeOk := b } : Pan).core = p.core := rfl

theorem undisturbed_writeOrder (s : State) (g : Gen) (legs : List Leg) : Undisturbed s (s.writeOrder g legs) := by
  have ha : ∀ p, ((s.writeOrder g legs).account p).target = (s.account p).target := by
    intro p; simp only [State.writeOrder, State.account_setMarks, State.account_setAccount]; split
    · next h => subst h; rfl
    · simp
  have hd : ∀ h, ((s.writeOrder g legs).desk h).lastConfirmed = (s.desk h).lastConfirmed ∧
      ((s.writeOrder g legs).desk h).state = (s.desk h).state := by
    intro h; simp only [State.writeOrder, State.desk_setMarks, State.desk_setAccount, State.desk_setAlloc,
      State.desk_setDesk]; split
    · next e => subst e; exact ⟨rfl, rfl⟩
    · exact ⟨rfl, rfl⟩
  constructor
  case target => exact ha
  case lastConfirmed => exact fun h => (hd h).1
  case out => exact fun h => by rw [(hd h).2]
  case outState => exact fun h _ => (hd h).2
  all_goals simp [State.writeOrder]

theorem Update.undisturbed {w : Scope} {D : Gen → Prop} (hw : w ≠ .service) {s t : State} (h : Update w D s t) : Undisturbed s t := by
  cases h with
  | coil c r hr hf hi =>
    have hc : ∀ i, SameReading (s.coil i) ((s.writeCoil c r).coil i) := by
      intro i; rw [State.coil_writeCoil]; split
      · next e => subst e; exact hr hw
      · exact ⟨rfl, rfl, rfl⟩
    constructor
    case coverage => exact fun i => (hc i).1
    case hot => exact fun i => (hc i).2.1
    case fault => exact fun i => (hc i).2.2
    all_goals intros; rfl
  | pan n p hp => constructor <;> intros <;> rfl
  | post e => constructor <;> simp
  | order g legs hg => exact undisturbed_writeOrder s g legs
  | books t hc hp he hm hl ho hd hu hs hk => exact hu hw

/-- Every update keeps what only requests of its own move, whatever its scope. -/
theorem Update.unmoved {w : Scope} {D : Gen → Prop} {s t : State} (h : Update w D s t) : Unmoved s t := by
  cases h with
  | coil c r hr hf hi => constructor <;> intros <;> rfl
  | pan n p hp => constructor <;> intros <;> rfl
  | post e => constructor <;> simp
  | order g legs hg => exact (undisturbed_writeOrder s g legs).unmoved
  | books t hc hp he hm hl ho hd hu hs hk => exact hk

theorem Path.unmoved {w : Scope} {D : Gen → Prop} {s t : State} (h : Path w D s t) : Unmoved s t := by
  induction h with
  | refl => exact .refl s
  | snoc _ step ih => exact ih.trans step.unmoved

theorem Path.undisturbed {w : Scope} {D : Gen → Prop} (hw : w ≠ .service) {s t : State} (h : Path w D s t) : Undisturbed s t := by
  induction h with
  | refl => exact .refl s
  | snoc _ step ih => exact ih.trans (step.undisturbed hw)

theorem Update.orderWork {D : Gen → Prop} {s t : State} (h : Update .orders D s t) : OrderWork s t := by
  refine ⟨h.undisturbed (by decide), ?_, ?_, ?_, ?_, ?_⟩ <;> cases h
  case refine_1.post => simp
  case refine_2.post => simp
  case refine_3.post => simp
  case refine_4.post => simp
  case refine_5.post => simp
  case refine_1.books hs _ => exact (hs rfl).1
  case refine_2.books hs _ => exact (hs rfl).2.1
  case refine_3.books hs _ => exact (hs rfl).2.2
  case refine_4.books hp he hm hl ho hd hu hs _ => intro n; simp only [State.pan, hp]
  case refine_5.books hc hp he hm hl ho hd hu hs _ => intro c _ _; simp only [State.coil, hc]
  case refine_5.coil c r hr hf hi =>
    intro i ho hn; rw [State.coil_writeCoil]; split
    · next e => subst e; exact absurd (hi (.inl rfl)) (by simp [ho, hn])
    · rfl
  case refine_4.pan n p hp =>
    intro i; rw [State.pan_writePan]; split
    · next e => subst e; exact (Pan.core_codeOk _ _).trans (hp rfl)
    · rfl
  all_goals first | rfl | exact fun _ => rfl | exact fun _ _ _ => rfl

theorem Path.orderWork {D : Gen → Prop} {s t : State} (h : Path .orders D s t) : OrderWork s t := by
  induction h with
  | refl => exact .refl s
  | snoc _ step ih => exact ih.trans step.orderWork

/-! ## Valid codes stay valid -/

theorem Update.sound {w : Scope} {D : Gen → Prop} {s t : State} (h : Update w D s t) (hs : s.Sound) : t.Sound := by
  have hm := hs.marks
  cases h with
  | coil c r hr hf hi =>
    refine ⟨fun i => ?_, hs.pans, hs.orders, hs.levels, ?_⟩
    · rw [State.coil_writeCoil]; split
      · simp [hm, TableMarks.clear]
      · exact hs.coils i
    · rw [State.marks_writeCoil, hm]; rfl
  | pan n p hp =>
    refine ⟨hs.coils, fun i => ?_, hs.orders, hs.levels, ?_⟩
    · rw [State.pan_writePan]; split
      · simp [hm, TableMarks.clear]
      · exact hs.pans i
    · rw [State.marks_writePan, hm]; rfl
  | post e =>
    exact ⟨by simpa using hs.coils, by simpa using hs.pans, by simpa using hs.orders, by simpa using hs.levels,
      by simpa using hm⟩
  | order g legs hg =>
    refine ⟨hs.coils, hs.pans, fun h => ?_, hs.levels, ?_⟩
    · simp only [State.writeOrder, State.desk_setMarks, State.desk_setAccount, State.desk_setAlloc,
        State.desk_setDesk]; split
      · simp [Desk.orderOk, hm, TableMarks.clear]
      · exact hs.orders h
    · simp [State.writeOrder, hm, TableMarks.clear]
  | books t hc hp he hm' hl ho hd hu hs' hk =>
    refine ⟨fun c => ?_, fun n => ?_, ho hs.orders, hl ▸ hs.levels, hm'.trans hm⟩
    · simp only [State.coil, hc]; exact hs.coils c
    · simp only [State.pan, hp]; exact hs.pans n

theorem Path.sound {w : Scope} {D : Gen → Prop} {s t : State} (h : Path w D s t) (hs : s.Sound) : t.Sound := by
  induction h with
  | refl => exact hs
  | snoc _ step ih => exact step.sound ih

theorem State.Sound.noCheckFails {s : State} (hs : s.Sound) (b : BadRecord) : ¬ CheckFails s b := by
  cases b with
  | coil c => simp [CheckFails, hs.coils c]
  | pan n => simp [CheckFails, hs.pans n]
  | order g => simp [CheckFails, hs.orders g]
  | levels => simp [CheckFails, hs.levels]

/-- With every code valid, work goes through to its end along its path. -/
theorem Run.completes {w : Scope} {D : Gen → Prop} {s : State} {f : Flow} (h : Run w D s f) (hs : s.Sound) :
    ∃ t, f = .ok t ∧ Path w D s t ∧ t.Sound := by
  obtain ⟨t, ht, rfl | ⟨b, hb, _⟩⟩ := h
  · exact ⟨t, rfl, ht, ht.sound hs⟩
  · exact absurd hb ((ht.sound hs).noCheckFails b)

/-- SAFE entry leaves the commands waiting and every port as they are (R168, R173). -/
theorem apart_enterSafe (b : BadRecord) (s : State) : (enterSafe b s).pending = s.pending ∧ (enterSafe b s).ports = s.ports := by
  have hs : ∀ (l : List Gen) (t : State), (l.foldl safeStop t).pending = t.pending ∧ (l.foldl safeStop t).ports = t.ports := by
    intro l; induction l with
    | nil => intro t; exact ⟨rfl, rfl⟩
    | cons g l ih =>
      intro t
      have hg : (safeStop t g).pending = t.pending ∧ (safeStop t g).ports = t.ports := by
        unfold safeStop; split
        · exact ⟨rfl, rfl⟩
        · simp [State.postStopped]
      rw [List.foldl_cons, (ih _).1, (ih _).2]; exact hg
  simp only [enterSafe, State.cleared]
  rw [(hs _ _).1, (hs _ _).2]
  simp [State.postSafe]

/-- SAFE entry sets SAFE (R166). -/
theorem enterSafe_safe (b : BadRecord) (s : State) : (enterSafe b s).safe = true := by
  have hs : ∀ (l : List Gen) (t : State), (l.foldl safeStop t).safe = t.safe := by
    intro l; induction l with
    | nil => intro t; rfl
    | cons g l ih =>
      intro t
      rw [List.foldl_cons, ih, safeStop]
      split <;> simp [State.postStopped]
  simp [enterSafe, State.cleared, hs, State.postSafe]

/-- Work that is abandoned ends SAFE, and work that goes on leaves the state of the part as it is (R166). -/
theorem Run.safe {w : Scope} {D : Gen → Prop} {s : State} {f : Flow} (h : Run w D s f) :
    (∀ v, f = .safe v → v.safe = true) ∧ ∀ u, f = .ok u → u.safe = s.safe := by
  obtain ⟨t, ht, hf⟩ := h
  refine ⟨fun v e => ?_, fun u e => ?_⟩ <;> rw [e] at hf <;> rcases hf with h | ⟨b, _, h⟩
  · exact nomatch h
  · rw [Flow.safe.inj h]; exact enterSafe_safe b t
  · rw [Flow.ok.inj h]; exact ht.unmoved.safe
  · exact nomatch h

/-- Work leaves the commands waiting as they are, whether or not it is abandoned. -/
theorem Run.pending {w : Scope} {D : Gen → Prop} {s : State} {f : Flow} (h : Run w D s f) : f.state.pending = s.pending := by
  obtain ⟨t, ht, rfl | ⟨b, _, rfl⟩⟩ := h
  · exact ht.unmoved.pending
  · exact (apart_enterSafe b t).1.trans ht.unmoved.pending

/-- Work leaves every port's OVERRUN flag and mark as they are, whether or not it is abandoned (R173). -/
theorem Run.port {w : Scope} {D : Gen → Prop} {s : State} {f : Flow} (h : Run w D s f) (l : Link) :
    (f.state.port l).overrun = (s.port l).overrun ∧ (f.state.port l).forcedBad = (s.port l).forcedBad := by
  obtain ⟨t, ht, rfl | ⟨b, _, rfl⟩⟩ := h
  · exact ⟨ht.unmoved.overrun l, ht.unmoved.forcedBad l⟩
  · simp only [Flow.state, State.port, (apart_enterSafe b t).2]
    exact ⟨ht.unmoved.overrun l, ht.unmoved.forcedBad l⟩

/-! ## The queue and the relays along a path -/

theorem queueOk_postEvent (s : State) (e : Event) (h : QueueOk s) : QueueOk (s.postEvent e) := by
  unfold State.postEvent
  split
  · exact h
  · next hc =>
    split
    · next hl =>
      refine ⟨by simp only [List.length_append, List.length_singleton]; omega, fun _ => by simp, fun n => ?_⟩
      simp only [List.countP_append, List.countP_singleton]
      split
      · next he =>
        have hz : (s.events.countP fun x => decide (x.kind = .panMoved) && (x.pan.map (·.slot) == some n)) = 0 := by
          rw [List.countP_eq_zero]
          intro x hx hxn
          apply hc
          simp only [Bool.and_eq_true, decide_eq_true_eq, beq_iff_eq] at he hxn
          obtain ⟨hk, hp⟩ := he
          cases hpan : e.pan with
          | none => simp [hpan] at hp
          | some p =>
            simp only [hpan, Option.map_some, Option.some.injEq] at hp
            simp only [coalesced, hk, decide_true, hpan, Bool.true_and, movedWaiting, List.any_eq_true]
            exact ⟨x, hx, by simp [hxn.1, hxn.2, hp]⟩
        omega
      · exact h.2.2 n
    · next hl =>
      refine ⟨h.1, fun _ he => ?_, h.2.2⟩
      simp only at he
      simp [he, Config.queueRoom] at hl

theorem Update.queueOk {w : Scope} {D : Gen → Prop} {s t : State} (h : Update w D s t) (hq : QueueOk s) : QueueOk t := by
  cases h with
  | coil => exact hq
  | pan => exact hq
  | post e => exact queueOk_postEvent s e hq
  | order => exact hq
  | books t hc hp he => unfold QueueOk; rw [he.1, he.2]; exact hq

theorem Path.queueOk {w : Scope} {D : Gen → Prop} {s t : State} (h : Path w D s t) (hq : QueueOk s) : QueueOk t := by
  induction h with
  | refl => exact hq
  | snoc _ step ih => exact step.queueOk ih

theorem Update.relaysOk {w : Scope} {D : Gen → Prop} {s t : State} (h : Update w D s t) (hr : RelaysOk s) : RelaysOk t := by
  cases h with
  | coil c r _ hf _ =>
    intro i hi; rw [State.coil_writeCoil]; split
    · next e => subst e; exact hf hi (hr i hi)
    · exact hr i hi
  | pan => exact hr
  | post e => intro i hi; simpa using hr i hi
  | order => exact hr
  | books t hc => intro i hi; simp only [State.coil, hc]; exact hr i hi

theorem Path.relaysOk {w : Scope} {D : Gen → Prop} {s t : State} (h : Path w D s t) (hr : RelaysOk s) : RelaysOk t := by
  induction h with
  | refl => exact hr
  | snoc _ step ih => exact step.relaysOk ih

/-! ## The desks a path leaves alone -/

theorem Update.desk {w : Scope} {D : Gen → Prop} {s t : State} (h : Update w D s t) {g : Gen} (hg : ¬ D g) :
    t.desk g = s.desk g := by
  cases h with
  | coil => rfl
  | pan => rfl
  | post e => simp
  | order g' legs h' =>
    simp only [State.writeOrder, State.desk_setMarks, State.desk_setAccount, State.desk_setAlloc, State.desk_setDesk]
    split
    · next e => subst e; exact absurd h' hg
    · rfl
  | books t hc hp he hm hl ho hd hu hs hk => exact (hd g hg).1

theorem Path.desk {w : Scope} {D : Gen → Prop} {s t : State} (h : Path w D s t) {g : Gen} (hg : ¬ D g) :
    t.desk g = s.desk g := by
  induction h with
  | refl => rfl
  | snoc _ step ih => exact (step.desk hg).trans ih

theorem Update.alloc {w : Scope} {D : Gen → Prop} {s t : State} (h : Update w D s t) {g : Gen} (hg : ¬ D g) :
    t.alloc g = s.alloc g := by
  cases h with
  | coil => rfl
  | pan => rfl
  | post e => simp
  | order g' legs h' =>
    simp only [State.writeOrder, State.alloc_setMarks, State.alloc_setAccount, State.alloc_setAlloc, State.alloc_setDesk]
    split
    · next e => subst e; exact absurd h' hg
    · rfl
  | books t hc hp he hm hl ho hd hu hs hk => exact (hd g hg).2

theorem Path.alloc {w : Scope} {D : Gen → Prop} {s t : State} (h : Path w D s t) {g : Gen} (hg : ¬ D g) :
    t.alloc g = s.alloc g := by
  induction h with
  | refl => rfl
  | snoc _ step ih => exact (step.alloc hg).trans ih

/-! ## The idle coils a path leaves alone -/

theorem Update.idle {w : Scope} {D : Gen → Prop} (hw : w.leavesIdle) {s t : State} (h : Update w D s t) {c : CoilNo}
    (ho : (s.coil c).state.owner = none) (hn : (s.coil c).state.order = none) : t.coil c = s.coil c := by
  cases h with
  | coil i r hr hf hi =>
    rw [State.coil_writeCoil]; split
    · next e => subst e; exact absurd (hi hw) (by simp [ho, hn])
    · rfl
  | pan => rfl
  | post e => simp
  | order => rfl
  | books t hc => simp only [State.coil, hc]

theorem Path.idle {w : Scope} {D : Gen → Prop} (hw : w.leavesIdle) {s t : State} (h : Path w D s t) {c : CoilNo}
    (ho : (s.coil c).state.owner = none) (hn : (s.coil c).state.order = none) : t.coil c = s.coil c := by
  induction h with
  | refl => rfl
  | snoc _ step ih => exact (step.idle hw (by rw [ih]; exact ho) (by rw [ih]; exact hn)).trans ih

end Sys2Proof.Machine
end

