-- ==== Sys2Proof/Laws/Ops.lean ====
section
/-! SUPPORT. One lemma for each shared operation of orders, plans and builds: which path of updates it takes. -/

namespace Sys2Proof.Machine

/-! ## Wider scopes -/

/-- What is a run of orders only is a run of every scope. -/
theorem Update.widen {w : Scope} {D : Gen → Prop} {s t : State} (h : Update .orders D s t) : Update w D s t := by
  cases h with
  | coil c r hr hf hi => exact .coil s c r (fun _ => hr (by decide)) hf fun _ => hi (.inl rfl)
  | pan n p hp => exact .pan s n p (fun _ => hp rfl)
  | post e => exact .post s e
  | order g legs hg => exact .order s g legs hg
  | books t hc hp he hm hl ho hd hu hs hk =>
    exact .books s t hc hp he hm hl ho hd (fun _ => hu (by decide)) (fun _ => hs rfl) hk

theorem Path.widen {w : Scope} {D : Gen → Prop} {s t : State} (h : Path .orders D s t) : Path w D s t := by
  induction h with
  | refl => exact .refl s
  | snoc _ step ih => exact .snoc ih step.widen

theorem Run.widen {w : Scope} {D : Gen → Prop} {s : State} {f : Flow} (h : Run .orders D s f) : Run w D s f := by
  obtain ⟨t, ht, hf⟩ := h
  exact ⟨t, ht.widen, hf⟩

/-- What is a run of cooking is a run of tracking. -/
theorem Update.toTracking {D : Gen → Prop} {s t : State} (h : Update .cooking D s t) : Update .tracking D s t := by
  cases h with
  | coil c r hr hf hi => exact .coil s c r (fun _ => hr (by decide)) hf (fun h => by cases h <;> contradiction)
  | pan n p hp => exact .pan s n p nofun
  | post e => exact .post s e
  | order g legs hg => exact .order s g legs hg
  | books t hc hp he hm hl ho hd hu hs hk => exact .books s t hc hp he hm hl ho hd (fun _ => hu (by decide)) nofun hk

theorem Path.toTracking {D : Gen → Prop} {s t : State} (h : Path .cooking D s t) : Path .tracking D s t := by
  induction h with
  | refl => exact .refl s
  | snoc _ step ih => exact .snoc ih step.toTracking

theorem Run.toTracking {D : Gen → Prop} {s : State} {f : Flow} (h : Run .cooking D s f) : Run .tracking D s f := by
  obtain ⟨t, ht, hf⟩ := h
  exact ⟨t, ht.toTracking, hf⟩

/-- What is a run of tracking is a run of service. -/
theorem Update.toService {D : Gen → Prop} {s t : State} (h : Update .tracking D s t) : Update .service D s t := by
  cases h with
  | coil c r hr hf hi => exact .coil s c r (fun h => absurd rfl h) hf (fun h => by cases h <;> contradiction)
  | pan n p hp => exact .pan s n p nofun
  | post e => exact .post s e
  | order g legs hg => exact .order s g legs hg
  | books t hc hp he hm hl ho hd hu hs hk => exact .books s t hc hp he hm hl ho hd (fun h => absurd rfl h) nofun hk

theorem Path.toService {D : Gen → Prop} {s t : State} (h : Path .tracking D s t) : Path .service D s t := by
  induction h with
  | refl => exact .refl s
  | snoc _ step ih => exact .snoc ih step.toService

theorem Run.toService {D : Gen → Prop} {s : State} {f : Flow} (h : Run .tracking D s f) : Run .service D s f := by
  obtain ⟨t, ht, hf⟩ := h
  exact ⟨t, ht.toService, hf⟩

/-- More desks may change. -/
theorem Update.more {w : Scope} {D E : Gen → Prop} (hDE : ∀ g, D g → E g) {s t : State} (h : Update w D s t) :
    Update w E s t := by
  cases h with
  | coil c r hr hf hi => exact .coil s c r hr hf hi
  | pan n p hp => exact .pan s n p hp
  | post e => exact .post s e
  | order g legs hg => exact .order s g legs (hDE g hg)
  | books t hc hp he hm hl ho hd hu hs hk => exact .books s t hc hp he hm hl ho (fun g hg => hd g fun h => hg (hDE g h)) hu hs hk

theorem Path.more {w : Scope} {D E : Gen → Prop} (hDE : ∀ g, D g → E g) {s t : State} (h : Path w D s t) :
    Path w E s t := by
  induction h with
  | refl => exact .refl s
  | snoc _ step ih => exact .snoc ih (step.more hDE)

theorem Run.more {w : Scope} {D E : Gen → Prop} (hDE : ∀ g, D g → E g) {s : State} {f : Flow} (h : Run w D s f) :
    Run w E s f := by
  obtain ⟨t, ht, hf⟩ := h
  exact ⟨t, ht.more hDE, hf⟩

/-! ## Changes outside the checked records -/

theorem unmoved_setDesk (s : State) (g : Gen) (d : Desk) : Unmoved s (s.setDesk g d) := by
  constructor <;> intros <;> rfl

/-- A desk written without a change of ABSENT or DISABLED. -/
theorem update_setDesk {w : Scope} {D : Gen → Prop} (s : State) (g : Gen) (d : Desk) (hg : D g)
    (ho : d.orderOk = true ∨ d.orderOk = (s.desk g).orderOk) (hl : d.lastConfirmed = (s.desk g).lastConfirmed)
    (hi : d.state.isOut = (s.desk g).state.isOut) (hs : (s.desk g).state.isOut = true → d.state = (s.desk g).state) :
    Update w D s (s.setDesk g d) := by
  refine .books s _ rfl rfl ⟨rfl, rfl⟩ rfl rfl ?_ ?_ (fun _ => ?_) (fun _ => ⟨rfl, rfl, rfl⟩) (unmoved_setDesk s g d)
  · intro h i; rw [State.desk_setDesk]; split
    · next e => subst e; exact ho.elim id fun e => e.trans (h _)
    · exact h i
  · intro i hi; rw [State.desk_setDesk, if_neg (by rintro rfl; contradiction)]; exact ⟨rfl, rfl⟩
  · have hk : (∀ i, ((s.setDesk g d).desk i).lastConfirmed = (s.desk i).lastConfirmed) ∧
        (∀ i, ((s.setDesk g d).desk i).state.isOut = (s.desk i).state.isOut) ∧
        ∀ i, (s.desk i).state.isOut = true → ((s.setDesk g d).desk i).state = (s.desk i).state := by
      refine ⟨fun i => ?_, fun i => ?_, fun i hi' => ?_⟩ <;> rw [State.desk_setDesk] <;> split
      · next e => subst e; exact hl
      · rfl
      · next e => subst e; exact hi
      · rfl
      · next e => subst e; exact hs hi'
      · rfl
    constructor
    case lastConfirmed => exact hk.1
    case out => exact hk.2.1
    case outState => exact hk.2.2
    all_goals intros; rfl

/-- A desk written by a request. -/
theorem update_setDesk_service {D : Gen → Prop} (s : State) (g : Gen) (d : Desk) (hg : D g)
    (ho : d.orderOk = true ∨ d.orderOk = (s.desk g).orderOk) : Update .service D s (s.setDesk g d) := by
  refine .books s _ rfl rfl ⟨rfl, rfl⟩ rfl rfl ?_ ?_ (fun h => absurd rfl h) nofun (unmoved_setDesk s g d)
  · intro h i; rw [State.desk_setDesk]; split
    · next e => subst e; exact ho.elim id fun e => e.trans (h _)
    · exact h i
  · intro i hi; rw [State.desk_setDesk, if_neg (by rintro rfl; contradiction)]; exact ⟨rfl, rfl⟩

theorem update_setAlloc {w : Scope} {D : Gen → Prop} (s : State) (g : Gen) (a : Alloc) (hg : D g) : Update w D s (s.setAlloc g a) :=
  .books s _ rfl rfl ⟨rfl, rfl⟩ rfl rfl (fun h => h) (fun i hi => ⟨rfl, by rw [State.alloc_setAlloc, if_neg (by rintro rfl; contradiction)]⟩) (fun _ => by constructor <;> intros <;> rfl)
    (fun _ => ⟨rfl, rfl, rfl⟩)
    (by constructor <;> intros <;> rfl)

theorem update_setAccount {w : Scope} {D : Gen → Prop} (s : State) (p : Phase) (a : Account)
    (ht : a.target = (s.account p).target) : Update w D s (s.setAccount p a) := by
  have h : ∀ q, ((s.setAccount p a).account q).target = (s.account q).target := by
    intro q; rw [State.account_setAccount]; split
    · next e => subst e; exact ht
    · rfl
  exact .books s _ rfl rfl ⟨rfl, rfl⟩ rfl rfl (fun h => h) (fun _ _ => ⟨rfl, rfl⟩)
    (fun _ => by constructor <;> intros <;> first | rfl | exact h _)
    (fun _ => ⟨rfl, rfl, rfl⟩)
    (by constructor <;> intros <;> first | rfl | exact h _)

/-- A change of the candidates, the priorities and the part-seconds only. -/
theorem update_lists {w : Scope} {D : Gen → Prop} (hw : w ≠ .orders) (s : State) (cs : List Candidate) (ps : List Slot)
    (ms : Vector Nat 8) : Update w D s { s with candidates := cs, priority := ps, partSeconds := ms } :=
  .books s _ rfl rfl ⟨rfl, rfl⟩ rfl rfl (fun h => h) (fun _ _ => ⟨rfl, rfl⟩) (fun _ => by constructor <;> intros <;> rfl)
    (fun h => absurd h hw)
    (by constructor <;> intros <;> rfl)

/-! ## Relays and releases -/

theorem relayTo_reading (c : CoilNo) (p : Position) (r : Coil) : SameReading r (relayTo c p r) := by
  unfold relayTo; split
  · split <;> exact ⟨rfl, rfl, rfl⟩
  · exact ⟨rfl, rfl, rfl⟩

theorem relayTo_fixed {c : CoilNo} (h : hasRelay c = false) (p : Position) (r : Coil) : relayTo c p r = r := by
  simp [relayTo, h]

theorem run_relayTo {w : Scope} {D : Gen → Prop} (c : CoilNo) (p : Position) (s : State)
    (hi : w.leavesIdle → (s.coil c).state.owner ≠ none) : Run w D s (editCoil c (relayTo c p) s) :=
  run_editCoil c _ s (fun _ => relayTo_reading c p _) (fun h hr => by rw [relayTo_fixed h]; exact hr)
    fun hw ho => absurd ho (hi hw)

theorem run_followPlan {w : Scope} {D : Gen → Prop} (c : CoilNo) (s : State) : Run w D s (followPlan c s) := by
  unfold followPlan; split
  · next o ho =>
    refine (run_checkPan _ s).bind fun t _ ht => ?_
    cases checkPan_ok ht
    split
    · split
      · exact run_relayTo c _ s fun _ => by simp [ho, CoilState.owner]
      · exact .here s
    · exact .here s
  · exact .here s

theorem run_addEnergy {w : Scope} {D : Gen → Prop} (legs : List Leg) (issued : Nat) (s : State) : Run w D s (addEnergy legs issued s) :=
  Run.forEach (fun l s => by
    show Run w D s (if _ then _ else _)
    split
    · exact run_rewritePan _ _ s fun _ => rfl
    · exact .here s) legs s

theorem run_countEnergy {w : Scope} {D : Gen → Prop} (g : Gen) (s : State) : Run w D s (countEnergy g s) := by
  unfold countEnergy; split
  · exact run_addEnergy _ _ s
  · exact .here s

theorem leaveOrder_reading (b : Bool) (r : Coil) : SameReading r (r.leaveOrder b) := by
  unfold Coil.leaveOrder; split <;> (try split) <;> exact ⟨rfl, rfl, rfl⟩

theorem leaveOrder_fixed (b : Bool) (r : Coil) (h : CoilFixed r) : CoilFixed (r.leaveOrder b) := by
  obtain ⟨d, cov, hot, flt, st, ok⟩ := r
  obtain ⟨hd, hs⟩ := h
  cases d
  · cases st with
    | releasing o n off => cases o <;> cases off <;> exact ⟨rfl, by simp [Coil.leaveOrder, Coil.atRest, Coil.restRemaining]⟩
    | transfer => exact hs.elim
    | switching => exact hs.elim
    | off m => exact ⟨rfl, hs⟩
    | _ => exact ⟨rfl, trivial⟩
  · cases hd

theorem leaveOrder_idle (b : Bool) (r : Coil) (h : r.state.order = none) : r.leaveOrder b = r := by
  obtain ⟨d, cov, hot, flt, st, ok⟩ := r
  cases st <;> first | rfl | cases h

theorem run_releaseCoils {w : Scope} {D : Gen → Prop} (g : Gen) (d : Bool) (s : State) : Run w D s (releaseCoils g d s) := by
  unfold releaseCoils; split
  · exact Run.forEach (fun c s => (run_editCoil c _ s (fun _ => leaveOrder_reading _ _)
      (fun _ h => leaveOrder_fixed _ _ h) fun _ _ h => leaveOrder_idle _ _ h).andThen fun t => Run.doIf _ (run_followPlan c) t) _ s
  · exact .here s

theorem release_target (a : Account) (n : Nat) : (a.release n).target = a.target := by
  unfold Account.release; simp only; split <;> rfl

theorem path_dropOrder {w : Scope} {D : Gen → Prop} (s : State) (g : Gen) (hg : D g) : Path w D s (s.dropOrder g) := by
  unfold State.dropOrder
  refine (Path.single (update_setAccount s _ _ (release_target _ _))).snoc (update_setDesk _ g _ hg (.inl rfl) rfl rfl ?_)
  intro _; rfl

theorem path_dropOrderPosting {w : Scope} {D : Gen → Prop} (s : State) (g : Gen) (hg : D g) : Path w D s (s.dropOrderPosting g) := by
  unfold State.dropOrderPosting; split
  · exact (path_dropOrder s g hg).snoc (.post _ _)
  · exact path_dropOrder s g hg

theorem run_releaseOrder {w : Scope} {D : Gen → Prop} (g : Gen) (d : Bool) (s : State) : Run w D s (releaseOrder g d s) :=
  (run_checkOrder g s).andThen fun s => (run_countEnergy g s).andThen fun s => run_releaseCoils g d s

/-! ## Builds -/

theorem run_readForBuild {w : Scope} {D : Gen → Prop} (s : State) : Run w D s (readForBuild s) :=
  Run.forEach (fun n s => (run_checkPan n s).andThen fun s =>
    Run.doIf _ (Run.forEach (fun c s => run_checkCoil c s) _) s) _ s

theorem taken_reading (n : Byte) (r : Coil) : SameReading r (r.taken n) := by
  unfold Coil.taken; split <;> exact ⟨rfl, rfl, rfl⟩

theorem taken_fixed (n : Byte) (r : Coil) (h : CoilFixed r) : CoilFixed (r.taken n) := by
  unfold Coil.taken; split
  · exact ⟨h.1, trivial⟩
  · exact h

theorem taken_idle (n : Byte) (r : Coil) (h : r.state.owner = none) : r.taken n = r := by
  unfold Coil.taken; split
  · next e => simp [e, CoilState.owner] at h
  · rfl

theorem run_takeCoils {w : Scope} {D : Gen → Prop} (g : Gen) (legs : List Leg) (s : State) : Run w D s (takeCoils g legs s) :=
  Run.forEach (fun c s => run_editCoil c _ s (fun _ => taken_reading _ _) (fun _ h => taken_fixed _ _ h)
    fun _ h _ => taken_idle _ _ h) _ s

theorem builtPan_core (g : Gen) (cands chosen : List Slot) (fits : List Fit) (n : Slot) (p : Pan) :
    (builtPan g cands chosen fits n p).core = p.core := by
  unfold builtPan; split
  · rfl
  · split <;> rfl

/-- Events posted for the items of a list. -/
theorem path_posts {w : Scope} {D : Gen → Prop} {α : Type} (f : State → α → State) (h : ∀ s x, Path w D s (f s x)) :
    ∀ (l : List α) (s : State), Path w D s (l.foldl f s)
  | [], s => .refl s
  | x :: xs, s => (h s x).trans (path_posts f h xs (f s x))

theorem path_postPowers {w : Scope} {D : Gen → Prop} (g : Gen) (before s : State) : Path w D s (postPowers g before s) := by
  unfold postPowers
  refine path_posts _ (fun s n => ?_) _ s
  split
  · exact .refl s
  · split
    · exact .single (.post _ _)
    · split
      · exact .single (.post _ _)
      · exact .refl s

theorem run_buildOrder {w : Scope} {D : Gen → Prop} (g : Gen) (s : State) (hg : D g) : Run w D s (buildOrder g s) := by
  unfold buildOrder
  refine (run_readForBuild s).andThen fun s => ?_
  refine (Run.doIf _ run_checkLevels s).andThen fun s => ?_
  refine (Run.forEach (fun n s => run_editPan n _ s fun _ => builtPan_core _ _ _ _ _ _) _ s).andThen fun t => ?_
  refine Run.after (.single (.order t g _ hg)) ((run_takeCoils g _ _).andThen fun u => .ok (path_postPowers g _ u))

/-! ## The Order Desk -/

theorem run_buildForWaiting {w : Scope} {D : Gen → Prop} (g : Gen) (e : Byte) (s : State) (hg : D g) :
    Run w D s (buildForWaiting g e s) :=
  (run_buildOrder g s hg).andThen fun t => .update (update_setDesk t g _ hg (.inr rfl) rfl rfl fun _ => rfl)

theorem path_requestYield {w : Scope} {D : Gen → Prop} (s : State) (g : Gen) (hg : D g) : Path w D s (s.requestYield g) := by
  unfold State.requestYield; split
  · next h => exact .single (update_setDesk s g _ hg (.inr rfl) rfl (by rw [h]; rfl) (by rw [h]; nofun))
  · exact .refl s

theorem run_rebuild {w : Scope} {D : Gen → Prop} (g : Gen) (s : State) (hg : D g) : Run w D s (rebuild g s) := by
  unfold rebuild
  refine (run_releaseCoils g false s).andThen fun t => .after (path_dropOrderPosting t g hg) ?_
  simp only
  split
  · exact .update (update_setDesk _ g _ hg (.inr rfl) rfl rfl fun _ => rfl)
  · exact run_buildForWaiting g _ _ hg

/-- A report on a generator whose desk may change, or that holds no order. -/
theorem run_reportDown {w : Scope} {D : Gen → Prop} (g : Gen) (s : State) (hg : D g ∨ (s.desk g).order = none) :
    Run w D s (reportDown g s) := by
  refine (run_checkOrder g s).bind fun t _ ht => ?_
  cases checkOrder_ok ht
  split
  · exact .here s
  · next o ho =>
    have hg := hg.resolve_right (by simp [ho])
    split
    · exact .ok (path_requestYield s g hg)
    · exact run_rebuild g s hg

/-- Reports, where every generator whose desk may not change holds no order. -/
theorem run_reportAll {w : Scope} {D : Gen → Prop} (gs : List Gen) (s : State)
    (h : ∀ g, ¬ D g → (s.desk g).order = none) : Run w D s (reportAll gs s) := by
  refine Run.forEachFrom s (fun g t ht => run_reportDown g t ?_) _ s (.refl s)
  by_cases hg : D g
  · exact .inl hg
  · exact .inr (by rw [ht.desk hg]; exact h g hg)

theorem run_retestDesk {w : Scope} {D : Gen → Prop} (g : Gen) (s : State)
    (hg : D g ∨ ∀ e, (s.desk g).desk ≠ .waiting e) : Run w D s (retestDesk g s) := by
  unfold retestDesk; split
  · next e he =>
    split
    · exact .here s
    · exact run_buildForWaiting g _ s (hg.resolve_right fun h => h e he)
  · exact .here s

/-- The test of the WAITING desks, where no desk waits that may not change. -/
theorem run_retestDesks {w : Scope} {D : Gen → Prop} (s : State)
    (h : ∀ g, ¬ D g → ∀ e, (s.desk g).desk ≠ .waiting e) : Run w D s (retestDesks s) := by
  refine Run.forEachFrom s (fun g t ht => run_retestDesk g t ?_) _ s (.refl s)
  by_cases hg : D g
  · exact .inl hg
  · exact .inr (by rw [ht.desk hg]; exact h g hg)

/-- Delivery by a generator in service. -/
theorem run_deliver {w : Scope} {D : Gen → Prop} (g : Gen) (s : State) (hg : D g) (h : w = .service ∨ (s.desk g).state.isOut = false) :
    Run w D s (deliver g s) := by
  unfold deliver
  refine (run_checkOrder g s).bind fun t _ ht => ?_
  cases checkOrder_ok ht
  have ho : ∀ d : Desk, (({ d with order := d.order.map fun o => { o with state := .issued s.now } } : Desk)).orderOk =
      d.orderOk := by intro d; cases hd : d.order <;> simp [Desk.orderOk, hd]
  rcases h with rfl | h
  · exact .update (update_setDesk_service s g _ hg (.inr (ho (s.desk g))))
  · exact .update (update_setDesk s g _ hg (.inr (ho (s.desk g))) rfl (by rw [h]; rfl) (by rw [h]; nofun))

theorem path_finishStop {w : Scope} {D : Gen → Prop} (s : State) (g : Gen) (cause : StopCause) (hg : D g)
    (h : w = .service ∨ ((s.desk g).state.isOut = false ∧ cause ≠ .disable)) : Path w D s (s.finishStop g cause) := by
  unfold State.finishStop
  have step : ∀ (t : State) (d : Desk), d.orderOk = true → d.lastConfirmed = (t.desk g).lastConfirmed →
      (w ≠ .service → d.state.isOut = false ∧ (t.desk g).state.isOut = false) → Update w D t (t.setDesk g d) := by
    intro t d ho hl hs
    by_cases hw : w = .service
    · subst hw; exact update_setDesk_service t g d hg (.inl ho)
    · obtain ⟨h1, h2⟩ := hs hw
      exact update_setDesk t g d hg (.inl ho) hl (h1.trans h2.symm) (by rw [h2]; nofun)
  have hdrop : Path w D s (if (s.desk g).order.isSome then s.dropOrder g else s) := by
    split
    · exact path_dropOrder s g hg
    · exact .refl s
  have hst : ((if (s.desk g).order.isSome then s.dropOrder g else s).desk g).state = (s.desk g).state := by
    split
    · simp [State.dropOrder]
    · rfl
  have hlc : ∀ t : State, ((t.emptyMemory g).desk g) = t.desk g := fun _ => rfl
  refine hdrop.trans ?_
  generalize (if (s.desk g).order.isSome then s.dropOrder g else s) = t at hst ⊢
  simp only
  have hmain : Path w D t (((t.emptyMemory g).setDesk g (if cause = .disable
      then { ((t.emptyMemory g).desk g).emptied .stopped with state := .disabled }
      else { ((t.emptyMemory g).desk g).emptied .stopped with
        hold := some Config.stopHold, holdEnd := cause.holdEnd })).postStopped g cause) := by
    refine .snoc (.snoc (.single (update_setAlloc t g _ hg)) (step _ _ ?_ ?_ ?_)) (.post _ _)
    · split <;> rfl
    · split <;> rfl
    · intro hw
      obtain ⟨h1, h2⟩ := h.resolve_left hw
      rw [if_neg h2]
      exact ⟨rfl, by rw [show ((State.setAlloc t g _).desk g) = t.desk g from rfl, hst]; exact h1⟩
  split
  · exact hmain.snoc (.post _ _)
  · exact hmain

/-- A stop of a generator in service, not by a disable; or any stop that a request makes. -/
theorem run_stopGen {w : Scope} {D : Gen → Prop} (g : Gen) (cause : StopCause) (s : State) (hg : D g)
    (h : w = .service ∨ ((s.desk g).state.isOut = false ∧ cause ≠ .disable)) : Run w D s (stopGen g cause s) := by
  unfold stopGen
  have h0 : Update w D s (s.setDesk g { s.desk g with state := .stopped }) := by
    rcases h with rfl | ⟨h, _⟩
    · exact update_setDesk_service s g _ hg (.inr rfl)
    · exact update_setDesk s g _ hg (.inr rfl) rfl (by rw [h]; rfl) (by rw [h]; nofun)
  refine .after (.single h0) ((run_releaseOrder g _ _).bind fun t ht _ => .ok (path_finishStop t g cause hg ?_))
  rcases h with h | ⟨h1, h2⟩
  · exact .inl h
  · by_cases hw : w = .service
    · exact .inl hw
    · refine .inr ⟨?_, h2⟩
      rw [(ht.undisturbed hw).out g]; simp [GenState.isOut]

/-! ## Generator Plans -/

theorem run_planPan {w : Scope} {D : Gen → Prop} (n : Slot) (s : State) : Run w D s (planPan n s) := by
  unfold planPan; split
  · exact run_editPan n _ s fun _ => rfl
  · exact .here s

theorem plannedPosition_home {c : CoilNo} (h : hasRelay c = false) (plan : Plan) : plannedPosition c plan = .home := by
  have ha : altGen c = none := by
    have hc : column c = 0 ∨ column c = 7 := by
      simp only [hasRelay, decide_eq_false_iff_not] at h; unfold column; omega
    simp [altGen, hc]
  cases plan with
  | split => rfl
  | single g => simp [plannedPosition, ha]

theorem run_moveCoil {w : Scope} {D : Gen → Prop} (plan : Plan) (c : CoilNo) (s : State) :
    Run w D s (moveCoil plan c s) := by
  unfold moveCoil
  refine (run_checkCoil c s).bind fun t _ ht => ?_
  cases checkCoil_ok ht
  split
  · next o ho => exact run_relayTo c _ s fun _ => by simp [ho, CoilState.owner]
  · next o n ho =>
    split
    · next hm =>
      refine run_editCoil c _ s (fun _ => ?_) (fun h hr => ?_) fun _ h => by simp [ho, CoilState.owner] at h
      · unfold Coil.toTransfer; split <;> exact ⟨rfl, rfl, rfl⟩
      · exact absurd (hr.1.trans (plannedPosition_home h plan).symm) hm.1
    · exact .here s
  · next o n p ho =>
    split
    · refine run_editCoil c _ s (fun _ => ?_) (fun h hr => ?_) fun _ h => by simp [ho, CoilState.owner] at h
      · unfold Coil.cancelTransfer; split <;> exact ⟨rfl, rfl, rfl⟩
      · unfold Coil.cancelTransfer; split
        · exact ⟨hr.1, trivial⟩
        · exact hr
    · exact .here s
  · exact .here s

theorem run_movePan {w : Scope} {D : Gen → Prop} (n : Slot) (s : State) : Run w D s (movePan n s) := by
  unfold movePan; split
  · exact Run.forEach (run_moveCoil _) _ s
  · exact .here s

theorem run_replanFrom {w : Scope} {D : Gen → Prop} : ∀ (l : List Slot) (noted : List Gen) (s : State),
    (∀ g, ¬ D g → (s.desk g).order = none) → Run w D s (replanFrom l noted s)
  | [], noted, s, h => run_reportAll noted s h
  | n :: rest, noted, s, h => by
    unfold replanFrom
    refine (run_planPan n s).bind fun t ht _ => (run_movePan n t).bind fun u hu _ => run_replanFrom rest _ u fun g hg => ?_
    rw [hu.desk hg, ht.desk hg]; exact h g hg

/-- The re-plan pass, where every generator whose desk may not change holds no order. -/
theorem run_replanPass {w : Scope} {D : Gen → Prop} (s : State) (h : ∀ g, ¬ D g → (s.desk g).order = none) :
    Run w D s (replanPass s) := run_replanFrom _ _ s h

end Sys2Proof.Machine
end

