-- ==== Sys2Proof/Laws/Tracking.lean ====
section
/-! SUPPORT. One lemma for each shared operation of the Pan Tracker, the timers and the coils of a generator: which path of updates it takes. -/

namespace Sys2Proof.Machine

variable {D : Gen → Prop}

/-- Every generator whose desk may not change holds no order: no report can reach it. -/
def HoldsNone (D : Gen → Prop) (s : State) : Prop := ∀ g, ¬ D g → (s.desk g).order = none

/-- No desk waits that may not change: no test of WAITING desks can reach it. -/
def WaitsNone (D : Gen → Prop) (s : State) : Prop := ∀ g, ¬ D g → ∀ e, (s.desk g).desk ≠ .waiting e

theorem HoldsNone.along {w : Scope} {s t : State} (h : HoldsNone D s) (p : Path w D s t) : HoldsNone D t :=
  fun g hg => by rw [p.desk hg]; exact h g hg

theorem WaitsNone.along {w : Scope} {s t : State} (h : WaitsNone D s) (p : Path w D s t) : WaitsNone D t :=
  fun g hg => by rw [p.desk hg]; exact h g hg

theorem holdsNone_all (s : State) : HoldsNone (fun _ => True) s := fun _ h => absurd trivial h

theorem waitsNone_all (s : State) : WaitsNone (fun _ => True) s := fun _ h => absurd trivial h

/-! ## Steps 2 to 6 -/

/-- A pan record edited while tracking. -/
theorem run_trackPan (n : Slot) (f : Pan → Pan) (s : State) : Run .tracking D s (editPan n f s) :=
  run_editPan n f s (fun h => by cases h)

theorem run_stepSole (picks : List Pick) (s : State) : Run .tracking D s (stepSole picks s) :=
  Run.forEach (fun (p : Pick) s => run_trackPan p.slot _ s) _ s

theorem run_stepShared (comps : List Component) (picks : List Pick) (s : State) :
    Run .tracking D s (stepShared comps picks s) :=
  Run.forEach (fun _ s => Run.forEach (fun (p : Pick) s => run_trackPan p.slot _ s) _ s) _ s

theorem run_stepLost (picks : List Pick) (s : State) : Run .tracking D s (stepLost picks s) :=
  Run.forEach (fun n s => by
    show Run .tracking D s (if _ then _ else _)
    split
    · exact (run_trackPan n _ s).andThen fun t => .update (.post t _)
    · exact .here s) _ s

theorem update_candidates (s : State) (cs : List Candidate) : Update .tracking D s { s with candidates := cs } :=
  update_lists (fun h => by cases h) s cs s.priority s.partSeconds

theorem update_priority (s : State) (ps : List Slot) : Update .tracking D s { s with priority := ps } :=
  update_lists (fun h => by cases h) s s.candidates ps s.partSeconds

theorem update_setPartSecond (s : State) (n : Slot) (ms : Nat) : Update .tracking D s (s.setPartSecond n ms) :=
  update_lists (fun h => by cases h) s s.candidates s.priority _

theorem run_stepReturn : ∀ (l left : List Component) (s : State), Run .tracking D s (stepReturn l left s)
  | [], left, s => .update (update_candidates s _)
  | k :: rest, left, s => by
    unfold stepReturn; split
    · exact (run_trackPan _ _ s).andThen fun t => .after (.single (.post t _)) (run_stepReturn rest left _)
    · exact run_stepReturn rest _ s

theorem run_stepCandidates (unpicked : List Component) (s : State) : Run .tracking D s (stepCandidates unpicked s) := by
  unfold stepCandidates
  exact .after (.single (update_candidates s _)) (run_stepReturn _ [] _)

theorem run_confirmInto (n : Slot) (c : Candidate) (s : State) : Run .tracking D s (confirmInto n c s) := by
  unfold confirmInto
  refine (run_trackPan n _ s).andThen fun t => .ok ?_
  have h : Path .tracking D t ((({ t with priority := t.priority ++ [n] } : State).setPartSecond n 0).postPan
      .panConfirmed (({ t with priority := t.priority ++ [n] } : State).setPartSecond n 0 |>.panId n)) :=
    .snoc (.snoc (.single (update_priority t _)) (update_setPartSecond _ n 0)) (.post _ _)
  split
  · exact h.snoc (.post _ _)
  · exact h

theorem run_stepConfirm : ∀ (l kept : List Candidate) (s : State), Run .tracking D s (stepConfirm l kept s)
  | [], kept, s => .update (update_candidates s _)
  | c :: rest, kept, s => by
    unfold stepConfirm; split
    · split
      · exact (run_confirmInto _ c s).andThen fun t => run_stepConfirm rest kept t
      · split
        · exact run_stepConfirm rest _ s
        · exact .after (.single (.post s _)) (run_stepConfirm rest _ _)
    · exact run_stepConfirm rest _ s

/-! ## Steps 7 and 8, and the evaluation whole -/

theorem leaveFootprint_reading (r : Coil) : SameReading r r.leaveFootprint := by
  unfold Coil.leaveFootprint; split <;> exact ⟨rfl, rfl, rfl⟩

theorem joinFootprint_reading (o : PanId) (p : Option PanId) (r : Coil) : SameReading r (r.joinFootprint o p) := by
  unfold Coil.joinFootprint; split <;> (try split) <;> exact ⟨rfl, rfl, rfl⟩

theorem leaveFootprint_fixed (r : Coil) (h : CoilFixed r) : CoilFixed r.leaveFootprint := by
  obtain ⟨d, cov, hot, flt, st, ok⟩ := r
  cases st <;> first | exact h | exact ⟨h.1, trivial⟩

theorem joinFootprint_fixed (o : PanId) (p : Option PanId) (r : Coil) (h : CoilFixed r) :
    CoilFixed (r.joinFootprint o p) := by
  obtain ⟨d, cov, hot, flt, st, ok⟩ := r
  cases st with
  | releasing => unfold Coil.joinFootprint; simp only; split <;> exact ⟨h.1, trivial⟩
  | transfer => exact h
  | switching => exact h.2.elim
  | free => exact ⟨h.1, trivial⟩
  | _ => exact h

/-- A coil record edited while tracking. -/
theorem run_trackCoil (c : CoilNo) (f : Coil → Coil) (s : State) (hr : ∀ r, SameReading r (f r))
    (hf : ∀ r, CoilFixed r → CoilFixed (f r)) : Run .tracking D s (editCoil c f s) :=
  run_editCoil c f s (fun _ => hr _) (fun _ => hf _) (fun h => by cases h <;> contradiction)

theorem run_stepOwners (s : State) (h : HoldsNone D s) : Run .tracking D s (stepOwners s) := by
  unfold stepOwners
  refine (Run.forEach (fun c s => run_trackCoil c _ s leaveFootprint_reading leaveFootprint_fixed) _ s).bind
    fun t ht _ => ?_
  refine (Run.forEach (fun c s => ?_) _ t).bind fun u hu _ => run_reportAll _ u ((h.along ht).along hu)
  split
  · exact run_trackCoil c _ s (joinFootprint_reading _ _) (joinFootprint_fixed _ _)
  · exact .here s

theorem path_stepMoved {w : Scope} (picks : List Pick) (s : State) : Path w D s (stepMoved picks s) := by
  refine path_posts _ (fun s p => ?_) picks s
  split
  · exact .refl s
  · exact .single (.post _ _)

theorem run_windowPan (n : Slot) (s : State) : Run .tracking D s (windowPan n s) := by
  unfold windowPan; split
  · split
    · split
      · exact .here s
      · refine (run_trackPan n _ s).andThen fun t => ?_
        simp only
        split
        · exact .ok (.snoc (.single (.post t _)) (update_priority _ _))
        · exact .ok (.single (.post t _))
    · exact run_trackPan n _ s
  · exact .here s

theorem run_stepWindowsFrom : ∀ (l : List Slot) (gs : List Gen) (s : State), HoldsNone D s →
    Run .tracking D s (stepWindowsFrom l gs s)
  | [], gs, s, h => run_reportAll gs s h
  | n :: rest, _, s, h => (run_windowPan n s).bind fun t ht _ => run_stepWindowsFrom rest _ t (h.along ht)

theorem run_barredPan (n : Slot) (s : State) : Run .tracking D s (barredPan n s) := by
  unfold barredPan; simp only; split
  · refine (run_checkPan n s).andThen fun t => (Run.forEach (fun c s => run_checkCoil c s) _ t).andThen fun u => ?_
    split
    · exact .here u
    · exact (run_trackPan n _ u).andThen fun v => .update (.post v _)
  · exact .here s

theorem run_barredFrom : ∀ (l : List Slot) (gs : List Gen) (s : State), HoldsNone D s →
    Run .tracking D s (barredFrom l gs s)
  | [], gs, s, h => run_reportAll gs s h
  | n :: rest, _, s, h => (run_barredPan n s).bind fun t ht _ => run_barredFrom rest _ t (h.along ht)

theorem run_evaluate (s : State) (h : HoldsNone D s) : Run .tracking D s (evaluate s) := by
  unfold evaluate
  refine (Run.forEach (fun c s => run_checkCoil c s) _ s).bind fun s p _ => ?_
  replace h := h.along p
  refine (Run.forEach (fun n s => run_checkPan n s) _ s).bind fun s p _ => ?_
  replace h := h.along p
  refine (run_stepSole _ s).bind fun s p _ => (run_stepShared _ _ s).bind fun s q _ => ?_
  replace h := (h.along p).along q
  refine (run_stepLost _ s).bind fun s p _ => (run_stepCandidates _ s).bind fun s q _ => ?_
  replace h := (h.along p).along q
  refine (run_stepConfirm _ [] s).bind fun s p _ => ?_
  replace h := h.along p
  refine (run_stepOwners s h).bind fun s p _ => ?_
  replace h := h.along p
  refine (Run.after (path_stepMoved _ s) (run_stepWindowsFrom _ [] _ (h.along (path_stepMoved (w := .tracking) _ s)))).bind
    fun s p _ => ?_
  replace h := h.along p
  exact (run_replanPass s h).bind fun s p _ => run_barredFrom _ [] s (h.along p)

/-! ## Timers and boosts -/

/-- A pan record edited by the Cooking Controls. -/
theorem run_cookPan (n : Slot) (f : Pan → Pan) (s : State) : Run .cooking D s (editPan n f s) :=
  run_editPan n f s (fun h => by cases h)

theorem run_completeTimer (n : Slot) (s : State) (h : HoldsNone D s) : Run .cooking D s (completeTimer n s) := by
  refine (run_cookPan n _ s).bind fun t p _ => .after (.single (.post t _)) (run_reportAll _ _ ?_)
  exact (h.along p).along (.single (w := .cooking) (.post t _))

theorem run_endBoost (n : Slot) (s : State) (h : HoldsNone D s) : Run .cooking D s (endBoost n s) := by
  refine (run_cookPan n _ s).bind fun t p _ => .after (.single (.post t _)) (run_reportAll _ _ ?_)
  exact (h.along p).along (.single (w := .cooking) (.post t _))

theorem run_decrementTimer (n : Slot) (s : State) : Run .cooking D s (decrementTimer n s) :=
  (run_cookPan n _ s).andThen fun t => .update (update_lists (by decide) t t.candidates t.priority _)

theorem run_completeIfDue (n : Slot) (s : State) (h : HoldsNone D s) : Run .cooking D s (completeIfDue n s) := by
  unfold completeIfDue; split
  · exact run_completeTimer n s h
  · exact .here s

theorem run_endBoostIfDue (n : Slot) (s : State) (h : HoldsNone D s) : Run .cooking D s (endBoostIfDue n s) := by
  unfold endBoostIfDue; split
  · exact run_endBoost n s h
  · exact .here s

theorem run_dueCompletions (before s : State) (h : HoldsNone D s) : Run .cooking D s (dueCompletions before s) := by
  refine Run.forEachFrom s (fun n t p => ?_) _ s (.refl s)
  show Run .cooking D t (if _ then _ else _)
  split
  · exact .here t
  · exact (run_completeIfDue n t (h.along p)).bind fun u q _ => run_endBoostIfDue n u ((h.along p).along q)

theorem run_settle (before s : State) (h : HoldsNone D s) (hw : WaitsNone D s) :
    Run .cooking D s (settle before s) :=
  (run_dueCompletions before s h).bind fun t p _ => run_retestDesks t (hw.along p)

/-- With no timer and no boost standing at 0, nothing falls due. -/
theorem dueCompletions_calm (before s : State) (h : s.Calm) : dueCompletions before s = .ok s := by
  unfold dueCompletions
  have key : ∀ l : List Slot, forEach (fun n s =>
      if before.heating n then Flow.ok s else (completeIfDue n s).andThen (endBoostIfDue n)) l s = .ok s := by
    intro l
    induction l with
    | nil => rfl
    | cons n rest ih =>
      have h1 : completeIfDue n s = .ok s := by simp [completeIfDue, (h n).1]
      have h2 : endBoostIfDue n s = .ok s := by simp [endBoostIfDue, (h n).2]
      show Flow.andThen (if _ then _ else _) _ = _
      rw [h1]
      simp only [Flow.andThen, h2, ite_self]
      exact ih
  exact key _

/-- With no timer and no boost standing at 0, settling only tests the WAITING desks again. -/
theorem settle_calm (before s : State) (h : s.Calm) : settle before s = retestDesks s := by
  unfold settle; rw [dueCompletions_calm before s h]; rfl

/-- Settling a calm state is work on orders only. -/
theorem run_settle_calm {w : Scope} (before s : State) (h : s.Calm) (hw : WaitsNone D s) :
    Run w D s (settle before s) := by
  rw [settle_calm before s h]; exact run_retestDesks s hw

/-- With no desk WAITING, the test of the WAITING desks does nothing. -/
theorem retestDesks_quiet (s : State) (h : ∀ g e, (s.desk g).desk ≠ .waiting e) : retestDesks s = .ok s := by
  have key : ∀ l : List Gen, forEach retestDesk l s = .ok s := by
    intro l
    induction l with
    | nil => rfl
    | cons g rest ih =>
      have h1 : retestDesk g s = .ok s := by
        unfold retestDesk; split
        · next e he => exact absurd he (h g e)
        · rfl
      show Flow.andThen (retestDesk g s) _ = _
      rw [h1]; exact ih
  exact key _

/-- Work on orders keeps a state calm. -/
theorem OrderWork.calm {s t : State} (h : OrderWork s t) (hs : s.Calm) : t.Calm := by
  intro n
  have hc := h.pan n
  have ht : (t.pan n).timer = (s.pan n).timer := by have := congrArg Pan.timer hc; exact this
  have hb : (t.pan n).boost = (s.pan n).boost := by have := congrArg Pan.boost hc; exact this
  rw [ht, hb]; exact hs n

/-! ## A generator's coils leave and come back -/

/-- A coil record edited by a request. -/
theorem run_serveCoil (c : CoilNo) (f : Coil → Coil) (s : State) (hf : ∀ r, CoilFixed r → CoilFixed (f r)) :
    Run .service D s (editCoil c f s) :=
  run_editCoil c f s (fun h => absurd rfl h) (fun _ => hf _) (fun h => by cases h <;> contradiction)

theorem toOff_fixed (r : Coil) (h : CoilFixed r) : CoilFixed r.toOff := by
  obtain ⟨d, cov, hot, flt, st, ok⟩ := r
  obtain ⟨hd, hs⟩ := h
  cases d
  · cases st with
    | off m => exact ⟨rfl, hs⟩
    | transfer => exact hs.elim
    | switching => exact hs.elim
    | _ => exact ⟨rfl, rfl⟩
  · cases hd

theorem leaveHome_fixed (r : Coil) (h : CoilFixed r) : CoilFixed r.leaveHome := by
  obtain ⟨d, cov, hot, flt, st, ok⟩ := r
  cases st with
  | off m => exact h
  | driven => exact ⟨h.1, trivial⟩
  | transfer => exact h.2.elim
  | releasing => exact ⟨h.1, trivial⟩
  | _ => exact toOff_fixed _ h

theorem comeBack_fixed (r : Coil) (h : CoilFixed r) : CoilFixed r.comeBack := by
  obtain ⟨d, cov, hot, flt, st, ok⟩ := r
  obtain ⟨hd, hs⟩ := h
  cases st with
  | off m => cases m with
    | none => exact ⟨hd, trivial⟩
    | some k => cases hs
  | transfer => exact hs.elim
  | switching => exact hs.elim
  | _ => exact ⟨hd, trivial⟩

theorem run_coilLeaves (c : CoilNo) (s : State) : Run .service D s (coilLeaves c s) := by
  unfold coilLeaves
  refine (run_serveCoil c _ s leaveHome_fixed).andThen fun t => ?_
  split
  · split
    · exact (run_trackPan _ _ t).toService
    · exact .here t
  · exact .here t

theorem path_postShrunk {w : Scope} (before s : State) : Path w D s (postShrunk before s) := by
  refine path_posts _ (fun s n => ?_) _ s
  split
  · exact .single (.post _ _)
  · exact .refl s

theorem run_coilsLeave (g : Gen) (s : State) (h : HoldsNone D s) : Run .service D s (coilsLeave g s) := by
  unfold coilsLeave
  refine (Run.forEach run_coilLeaves _ s).bind fun t p _ => ?_
  have h2 := (h.along p).along (path_postShrunk (w := .service) s t)
  refine Run.after (path_postShrunk s t) ((Run.forEach (fun c s => run_relayTo c .home s (fun h => by cases h <;> contradiction)) _ _).bind
    fun u q _ => run_reportAll _ u (h2.along q))

/-- A change of one port's receiver only. -/
theorem update_port (s : State) (l : Link) (rx : Receiver) : Update .service D s (s.setPort l { s.port l with rx := rx }) := by
  have h : ∀ k, ((s.setPort l { s.port l with rx := rx }).port k).overrun = (s.port k).overrun ∧
      ((s.setPort l { s.port l with rx := rx }).port k).forcedBad = (s.port k).forcedBad := by
    intro k; rw [State.port_setPort]; split
    · next e => subst e; exact ⟨rfl, rfl⟩
    · exact ⟨rfl, rfl⟩
  exact .books s _ rfl rfl ⟨rfl, rfl⟩ rfl rfl (fun h => h) (fun _ _ => ⟨rfl, rfl⟩) (fun h => absurd rfl h) nofun
    (by constructor <;> intros <;> first | rfl | exact (h _).1 | exact (h _).2)

theorem path_discardPartial (s : State) (g : Gen) : Path .service D s (s.discardPartial g) := by
  unfold State.discardPartial; split
  · exact .single (update_port s _ _)
  · exact .refl s

theorem run_disableGen (g : Gen) (s : State) (hg : D g) (h : HoldsNone D s) : Run .service D s (disableGen g s) := by
  unfold disableGen; split
  · exact .here s
  · refine .ok (.snoc (.snoc (path_discardPartial s g) (update_setDesk_service _ g _ hg (.inr ?_))) (.post _ _))
    unfold State.discardPartial; split <;> rfl
  · have h2 := h.along (path_discardPartial s g)
    exact .after (path_discardPartial s g) ((run_stopGen g .disable _ hg (.inl rfl)).bind
      fun t p _ => run_coilsLeave g t (h2.along p))

/-- A desk whose generator state alone is written. -/
theorem update_genState (s : State) (g : Gen) (st : GenState) (hg : D g) :
    Update .service D s (s.setDesk g { s.desk g with state := st }) :=
  update_setDesk_service s g { s.desk g with state := st } hg (.inr rfl)

theorem run_enableGen (g : Gen) (s : State) (hg : D g) : Run .service D s (enableGen g s) := by
  unfold enableGen; split
  · exact .after (.single (update_genState s g .absent hg))
      (Run.forEach (fun c s => run_serveCoil c Coil.repaired s fun _ h => h) _ _)
  · exact .here s

/-- ENABLE GENERATORS may change every desk. -/
theorem run_enableGens (enable disable : List Gen) (s : State) :
    Run .service (fun _ => True) s (enableGens enable disable s) := by
  unfold enableGens
  refine (Run.forEach (fun g s => ?_) _ s).andThen fun t =>
    ((Run.doIf _ (fun s => (run_evaluate s (holdsNone_all s)).toService) t).andThen fun u =>
      (run_settle s u (holdsNone_all u) (waitsNone_all u)).toTracking.toService)
  split
  · exact run_disableGen g s trivial (holdsNone_all s)
  · split
    · exact run_enableGen g s trivial
    · exact .here s

theorem path_emptied (s : State) (g : Gen) (st : GenState) (hg : D g) : Path .service D s
    ((s.emptyMemory g).setDesk g { ((s.emptyMemory g).desk g).emptied st with lastConfirmed := 0 }) :=
  .snoc (.single (update_setAlloc s g { s.alloc g with memory := [] } hg)) (update_setDesk_service _ g
    { ((s.emptyMemory g).desk g).emptied st with lastConfirmed := 0 } hg (.inl rfl))

theorem path_joined (s : State) (g : Gen) (hg : D g) :
    Path .service D s ((s.setDesk g { s.desk g with state := .joined }).postGen .generatorJoined g) :=
  .snoc (.single (update_genState s g .joined hg)) (.post _ _)

theorem run_hello (g : Gen) (s : State) (hg : D g) (h : HoldsNone D s) (hw : WaitsNone D s) :
    Run .service D s (hello g s) := by
  unfold hello
  refine (run_releaseOrder g false s).bind fun t p _ => ?_
  replace h := h.along p
  replace hw := hw.along p
  simp only
  have h1 : Path .service D t (if (t.desk g).order.isSome then t.dropOrderPosting g else t) := by
    split
    · exact path_dropOrderPosting t g hg
    · exact .refl t
  refine .after h1 ?_
  replace h := h.along h1
  replace hw := hw.along h1
  generalize (if (t.desk g).order.isSome then t.dropOrderPosting g else t) = v at h hw
  have h2 := path_emptied v g (s.desk g).state hg
  refine .after h2 ?_
  refine (Run.forEach (fun c s => run_serveCoil c _ s comeBack_fixed) _ _).bind fun u q _ => ?_
  have h3 := path_joined u g hg
  replace h := ((h.along h2).along q).along h3
  replace hw := ((hw.along h2).along q).along h3
  refine .after h3 ((Run.doIf' _ (run_replanPass _ h)).bind fun v r _ => ?_)
  exact (run_settle s v (h.along r) (hw.along r)).toTracking.toService

end Sys2Proof.Machine
end

