-- ==== Sys2Proof/Laws/Requests.lean ====
section
/-! SUPPORT. What a request on a listening port comes to: it is routed and answered, and the answer changes only the port. -/

namespace Sys2Proof.Machine

/-! ## A whole message on a port that listens -/

/-- A message that fits is taken at once by a port that is IDLE. -/
theorem messageArrives_listens {s : State} {l : Link} (h : s.Listens l) (kind : Byte) {body : List Byte}
    (hb : bodyFits body = true) : s.messageArrives l kind body = s.takeMessage l ⟨kind, body⟩ := by
  obtain ⟨hr, hx⟩ := h
  simp [State.messageArrives, hr, hx, hb, Receiver.awaits]

/-- While RST is low no message arrives. -/
theorem messageArrives_low {s : State} (h : s.rstLow = true) (l : Link) (kind : Byte) (body : List Byte) :
    s.messageArrives l kind body = s := by simp [State.messageArrives, h]

/-- A reply is begun: nothing outside the port changes. -/
theorem answered_reply (s : State) (l : Link) (m : Option Message) (causes : Causes) (a : Answer) :
    Answered l a.kind a.fields s (s.reply l m causes a) where
  same := rfl
  others k hk := by
    simp only [State.reply, State.port_setPort]
    rw [if_neg hk]
  replied := ⟨makeReply a.kind (s.linkFlags l :: a.fields) (s.markFires l m), by
    simp [State.replyOn, State.reply], rfl, rfl⟩
  overrun := by simp [State.reply]

/-- Its CHECK is spoiled exactly when the mark of the link fires, which clears the mark. -/
theorem sends_reply (s : State) (l : Link) (m : Option Message) (causes : Causes) (a : Answer) :
    Sends (s.markFires l m) l (s.reply l m causes a) ∧
      ((s.reply l m causes a).port l).forcedBad = ((s.port l).forcedBad && !s.markFires l m) := by
  refine ⟨⟨makeReply a.kind (s.linkFlags l :: a.fields) (s.markFires l m), by simp [State.replyOn, State.reply], ?_⟩,
    by simp [State.reply]⟩
  cases h : s.markFires l m <;> simp [makeReply]

theorem testReplyUnsent_iff (s : State) (l : Link) : s.testReplyUnsent l = true ↔ s.TestUnsent l := by
  unfold State.testReplyUnsent State.TestUnsent namesLink
  constructor
  · intro h
    split at h
    · next m causes r hx =>
      simp only [Bool.and_eq_true, decide_eq_true_eq] at h
      obtain ⟨hr, hk, hb⟩ := h
      split at hb
      · next b hm => exact ⟨m, causes, r, b, hx, hr, hk, hm, by simpa using hb⟩
      · contradiction
    · contradiction
  · rintro ⟨m, causes, r, b, hx, hr, hk, hm, hb⟩
    rw [hx]
    simp [hr, hk, hm, hb, ReqKind.code]

/-- The command of a request kind is the arrival of a message of that kind. -/
theorem exec_requestCommand (k : ReqKind) (l : Link) (body : List Byte) (s : State) :
    exec (requestCommand k l body) s = .next (s.messageArrives l k.code body) := by
  cases k <;> first | rfl | (simp only [requestCommand]; split <;> rfl)

theorem ofCode_code (k : ReqKind) : ReqKind.ofCode k.code = some k := by cases k <;> decide

/-- A request served on its link: what its own rule answers, begun as a reply. -/
theorem exec_served {k : ReqKind} {l : Link} {body : List Byte} {s : State} (h : s.Listens l)
    (hb : bodyFits body = true) (ha : kindAllowed k l = true) (he : bodyless k = true → body = []) :
    exec (requestCommand k l body) s =
      .next ((serve k l body s).1.reply l (some ⟨k.code, body⟩) Causes.none (serve k l body s).2) := by
  rw [exec_requestCommand, messageArrives_listens h _ hb]
  simp only [State.takeMessage, route, ofCode_code, ha, Bool.true_eq_false, if_false]
  rw [if_neg fun hn => hn.2 (he hn.1)]

/-! ## Reports and settling with every code valid -/

theorem Run.reported {gs : List Gen} {s : State} (hs : s.Sound) : ∃ t, Reported gs s t := by
  obtain ⟨t, ht, hp, hq⟩ := (run_reportAll (w := .orders) (D := fun _ => True) gs s (holdsNone_all s)).completes hs
  exact ⟨t, ht, hq, hp.orderWork⟩

theorem reported_nil {s : State} (hs : s.Sound) : Reported [] s s := by
  obtain ⟨t, h⟩ := Run.reported (gs := []) hs
  have e : reportAll [] s = .ok s := by simp [reportAll, forEach]
  have : t = s := by have := h.work.symm.trans e; simpa using this
  exact this ▸ h

theorem settled_sound (before : State) {s : State} (hs : s.Sound) : ∃ t, Settled before s t := by
  obtain ⟨t, ht, hp, hq⟩ :=
    (run_settle (D := fun _ => True) before s (holdsNone_all s) (waitsNone_all s)).completes hs
  refine ⟨t, ht, hq, hp.undisturbed (by decide), fun c ho hn => hp.idle (.inr rfl) ho hn, fun hc => ?_, fun hc hn => ?_⟩
  · obtain ⟨u, hu, hr, _⟩ := (run_settle_calm (w := .orders) (D := fun _ => True) before s hc (waitsNone_all s)).completes hs
    have : u = t := by have := hu.symm.trans ht; simpa using this
    exact this ▸ hr.orderWork
  · have := ht.symm.trans ((settle_calm before s hc).trans (retestDesks_quiet s hn))
    simpa using this

end Sys2Proof.Machine
end

