-- ==== Sys2Proof/Tests/Slice0.lean ====
section
/-! SUPPORT. Small tests: ill-formed commands refused, one or two steps of each command, and for every statement a state and operands that meet its hypotheses. -/

namespace Sys2Proof.Tests

set_option Elab.async false

open Sys2Proof Sys2Proof.Machine

/-! ## Well-formedness -/

/-- Every kind with a body refuses 249 bytes and takes 248. -/
theorem test_wf_body_length :
    (ReqKind.all.all fun k => (requestCommand k .pl (List.replicate 249 0)).wellFormed = false) = true ∧
    (ReqKind.all.all fun k => (requestCommand k .pl (List.replicate 248 0)).wellFormed = true) = true := by decide +kernel

theorem test_wf_unknownKind : (Instr.unknownKind .pl 0x01 []).wellFormed = false ∧
    (Instr.unknownKind .pl 0x81 []).wellFormed = true ∧ (Instr.unknownKind .pl 0x81 (List.replicate 249 0)).wellFormed = false := by
  decide +kernel

theorem test_wf_badFrame : (Instr.badFrame .pl Causes.none).wellFormed = false ∧
    (Instr.badFrame .pl ⟨false, false, false, false, true⟩).wellFormed = false ∧
    (Instr.badFrame .pl ⟨false, false, true, true, false⟩).wellFormed = false ∧
    (Instr.badFrame .pl ⟨true, true, false, true, false⟩).wellFormed = true := by decide

theorem test_wf_configure : (Instr.configureRead .pl [1, 2, 3]).wellFormed = false ∧
    (Instr.configureWrite .pl [1]).wellFormed = false ∧ (Instr.configureRead .pl [1]).wellFormed = true ∧
    (Instr.configureWrite .pl [1, 2, 3]).wellFormed = true := by decide

theorem test_wf_switchEnd : (Instr.switchEnd 8).wellFormed = false ∧ (Instr.switchEnd 15).wellFormed = false ∧
    (Instr.switchEnd 9).wellFormed = true ∧ (Instr.switchEnd 46).wellFormed = true := by decide

/-- No command has bits of its own. -/
theorem test_decodeTableWord : decodeTableWord 8 0 = none ∧ State.reset.withFetchWord 8 0 = State.reset := by decide +kernel

/-! ## Small states -/

/-- The state a command answers. -/
def after (c : Instr) (s : State) : State :=
  match exec c s with
  | .next t => t
  | _ => s

/-- The reply begun on a link: its kind and its body. -/
def replied (c : Instr) (s : State) (l : Link) : Option (Byte × List Byte) :=
  ((after c s).replyOn l).map fun r => (r.kind, r.body)

/-- The whole coil of a pan: claimed, read at 12 sixteenths. -/
def under (o : PanId) : Coil := ⟨.home, some 12, false, false, .claimed o, true⟩

/-- A pan of tag 1 on coils 0 and 1, at BOOST. -/
def pan0 : Pan := { Pan.freed 1 with
  state := .present, footprint := [0, 1], centre := some ⟨2, 0⟩, total := 24, level := 13, plan := some (.single 0)
  boost := some 5000 }

/-- G0 JOINED, a pan of slot 0 on coils 0 and 1, heating permitted. -/
def table : State := { State.reset with
  now := 1000
  coils := (State.reset.coils.set 0 (under ⟨0, 1⟩)).set 1 (under ⟨0, 1⟩)
  pans := State.reset.pans.set 0 pan0
  priority := [0]
  permit := .running 5000
  desks := State.reset.desks.set 0 { Desk.initial with state := .joined } }

/-- An order of G0 for that pan on coil 0. -/
def order0 (st : OrderState) : Order := ⟨1, st, [⟨.a, ⟨0, 1⟩, [0], 500, false, 0⟩], 500, true⟩

/-- The same with coil 0 in the order, which G0 holds. -/
def held (st : OrderState) (d : Desk) : State := { table with
  coils := table.coils.set 0 { under ⟨0, 1⟩ with state := .driven ⟨0, 1⟩ 1 }
  desks := table.desks.set 0 { d with order := some (order0 st) }
  allocs := table.allocs.set 0 ⟨1, []⟩
  accounts := table.accounts.set 0 { Account.initial with load := 500 } }

/-- G0 ORDERED, its order issued 500 ms ago. -/
def cooking : State := held (.issued 500) { Desk.initial with state := .ordered, lease := some 1500 }

/-- G0 JOINED with its order BUILT. -/
def ready : State := held .built { Desk.initial with state := .joined, desk := .complete 0, collection := some 100 }

/-- G0 JOINED and WAITING, coil 1 switching toward it. -/
def waiting : State := { table with
  coils := table.coils.set 1 { under ⟨0, 1⟩ with state := .switching (some ⟨0, 1⟩) 5 }
  desks := table.desks.set 0 { Desk.initial with state := .joined, desk := .waiting 0, repeats := 64 } }

/-! ## One step of each command -/

theorem test_powerOnReset : after (.powerOnReset 2) cooking = { State.reset with rate := 2 } := by decide +kernel

theorem test_rstTakenLow : (after .rstTakenLow cooking).rstLow = true ∧ (after .rstTakenLow cooking).coils = State.reset.coils := by
  decide +kernel

/-- The STATUS of a part right after reset: RUN, UNSET, four ABSENT generators, 3,680 W twice (R199). -/
theorem test_status : replied (.status (.gl 3) []) State.reset (.gl 3) = some (0x81,
    [0, 0, 0, 0, 0, 0, 0, 0, 0, 0x60, 0x0E, 0x60, 0x0E, 0, 0, 0x60, 0x0E, 0x60, 0x0E, 0, 0]) := by decide +kernel

/-- The CHECK byte of a STATUS request, LEN 0 and KIND 0x01 (10 section 10.6). -/
theorem test_crc : crc [0, 1] = 0x56 := by decide +kernel

theorem test_unknownKind : replied (.unknownKind .pl 0x81 []) State.reset .pl = some (0x84, [0, 0x02]) := by decide +kernel

theorem test_badFrame : replied (.badFrame .sl ⟨false, true, false, true, false⟩) State.reset .sl = some (0x85, [0, 0x02]) := by
  decide +kernel

theorem test_gapTimeout : replied (.gapTimeout .sl)
    (State.reset.setPort .sl ⟨.receiving [0] Causes.none 2, true, false⟩) .sl = some (0x85, [1, 0x05]) := by decide +kernel

theorem test_replySent : after (.replySent .pl) (after (.status .pl []) State.reset) = State.reset := by decide +kernel

/-- The last byte of a STATUS completes it. -/
theorem test_linkByteReceived : replied (.linkByteReceived .pl (lineByte 0x56))
    (State.reset.setPort .pl ⟨.receiving [0, 1] Causes.none 2, false, false⟩) .pl =
      replied (.status .pl []) State.reset .pl := by decide +kernel

/-- 0x56 has four ones: its parity bit is 0 and its stop bit 1 (R179). -/
theorem test_lineBits : lineByte 0x56 = 0x256 ∧ receivedByte 0x256 = ⟨0x56, false, false⟩ ∧ receivedByte 0x356 = ⟨0x56, true, false⟩ ∧
    receivedByte 0x056 = ⟨0x56, false, true⟩ ∧
    lineLevels 0x256 = [false, false, true, true, false, true, false, true, false, false, true] := by decide +kernel

theorem test_baud : (after (.powerOnReset 1) cooking).baud = 230400 := by decide +kernel

theorem test_setLevel_lower : (after (.setLevel .pl [0, 1, 5]) cooking).yieldLine 0 = true ∧
    replied (.setLevel .pl [0, 1, 5]) cooking .pl = some (0x81, [0, 0, 1, 5, 0, 0xFF, 0xFF, 0xFF, 0xFF]) := by decide +kernel

theorem test_setTimer_zero : ((after (.setTimer .pl [0, 1, 0, 0, 1]) table).pan 0).held = true ∧
    (after (.setTimer .pl [0, 1, 0, 0, 1]) table).events.map (·.kind) = [.timerDone] := by decide +kernel

theorem test_hold : replied (.hold .pl [0xFF]) table .pl = some (0x81, [0, 0x01]) := by decide +kernel

theorem test_resume : replied (.resume .pl [0xFF]) (after (.replySent .pl) (after (.hold .pl [1]) table)) .pl = some (0x81, [0, 0]) := by
  decide +kernel

theorem test_stopAll : (after (.stopAll .pl []) cooking).stopLine 0 = true ∧
    ((after (.stopAll .pl []) cooking).pan 0).energy = 250000 ∧ ((after (.stopAll .pl []) cooking).account .l1).load = 0 := by
  decide +kernel

theorem test_setWindow : replied (.setWindow .pl [3, 2, 0, 7, 5, 0, 12]) cooking .pl = some (0x81, [0, 3, 2, 0, 7, 5, 0, 12]) ∧
    replied (.setWindow .pl [4, 2, 0, 7, 5, 0, 12]) cooking .pl = some (0x84, [0, 0x03]) := by decide +kernel

theorem test_permit : replied (.permit .pl [60]) table .pl = some (0x81, [0, 1, 0x60, 0xEA]) := by decide +kernel

theorem test_enableGenerators : replied (.enableGenerators .pl [0, 3]) table .pl = some (0x81, [4, 5, 5, 0, 0]) := by decide +kernel

theorem test_checkTest : replied (.checkTest .pl [9]) table .pl = some (0x81, [0, 0, 1]) ∧
    replied (.checkTest .pl [9]) cooking .pl = some (0x84, [0, 0x06]) := by decide +kernel

theorem test_restart : replied (.restart .pl []) cooking .pl = some (0x81, [0]) ∧
    ((after (.restart .pl []) cooking).desk 0).hold = some 250 := by decide +kernel

theorem test_readEvents : replied (.readEvents .pl [8]) (State.reset.post .permitExpired) .pl =
    some (0x81, [0, 0, 1, 0x14, 0, 0, 0, 0xFF, 0xFF, 0xFF]) := by decide +kernel

theorem test_readPans : replied (.readPans .pl []) cooking .pl = some (0x81,
    [0, 1, 0x10, 1, 13, 0, 2, 0, 2, 0xF4, 1, 0xFF, 0xFF, 0, 0, 24, 0]) := by decide +kernel

theorem test_readMap : (replied (.readMap .pl []) cooking .pl).map (fun r => r.2.take 7) =
    some [0, 3, 0x81, 12, 2, 0x81, 12] := by decide +kernel

theorem test_configureRead : replied (.configureRead .pl [0x0D]) table .pl = some (0x81, [0, 0x0D, 0x10, 0x0E]) := by decide +kernel

theorem test_configureWrite : replied (.configureWrite .pl [0x13, 1, 0]) table .pl = some (0x81, [0, 0x13, 1, 0]) ∧
    replied (.configureWrite .pl [0x0D, 0x0A, 0]) table .pl = some (0x84, [0, 0x03]) := by decide +kernel

theorem test_hello : replied (.hello (.gl 2) []) State.reset (.gl 2) = some (0x81, [4, 2, 2, 0xD0, 0x07, 50]) ∧
    (((after (.hello (.gl 2) []) State.reset).coil 4).state = .free) := by decide +kernel

/-- An entry for a coil of another generator is ignored. -/
theorem test_sweep : replied (.sweep (.gl 0) [2, 0, 12, 0, 3, 12, 0]) table (.gl 0) = some (0x81, [0, 1]) := by decide +kernel

/-- The order that a FETCH delivers: 3,600 W on inverter A for coils 0 and 1. -/
theorem test_fetch : replied (.fetch (.gl 0) [0]) table (.gl 0) = some (0x83, [0, 1, 1, 0, 0x01, 0x10, 0x0E, 2, 0, 1]) := by
  decide +kernel

theorem test_fetch_starved : replied (.fetch (.gl 0) [0]) waiting (.gl 0) = some (0x84, [4, 0x0C]) := by decide +kernel

theorem test_setCap : replied (.setCap .sl [1, 0x64, 0]) cooking .sl =
    some (0x81, [4, 0x64, 0, 0x60, 0x0E, 0xF4, 1, 1, 0xD0, 0x07]) := by decide +kernel

theorem test_shed : replied (.shed .sl [1, 0x64, 0, 0x64, 0]) cooking .sl =
    some (0x82, [4, 0x64, 0, 0x60, 0x0E, 0xF4, 1, 1, 0x64, 0]) := by decide +kernel

theorem test_readLoad : (replied (.readLoad .sl []) cooking .sl).map (fun r => r.2.length) = some 35 := by decide +kernel

/-- The relay stops after its 5 ms, and the WAITING desk builds. -/
theorem test_switchEnd : (after (.switchEnd 1) waiting).now = 1005 ∧
    ((after (.switchEnd 1) waiting).desk 0).collection = some 100 := by decide +kernel

theorem test_lostTimeExpiry :
    (after (.lostTimeExpiry 0) (table.setPan 0 { pan0 with state := .lost, footprint := [], lostRemaining := some 3 })).now = 1003 ∧
    (after (.lostTimeExpiry 0) (table.setPan 0 { pan0 with state := .lost, footprint := [], lostRemaining := some 3 })).priority = [] := by
  decide +kernel

theorem test_partSecondElapsed :
    ((after (.partSecondElapsed 0) ((table.setPan 0 { pan0 with timer := some 2 }).setPartSecond 0 999)).pan 0).timer = some 1 := by
  decide +kernel

theorem test_timerDone :
    ((after (.timerDone 0) ((table.setPan 0 { pan0 with timer := some 1 }).setPartSecond 0 990)).pan 0).level = 0 := by decide +kernel

theorem test_boostEnded : ((after (.boostEnded 0) (cooking.setPan 0 { pan0 with boost := some 2 })).pan 0).level = 12 ∧
    (after (.boostEnded 0) (cooking.setPan 0 { pan0 with boost := some 2 })).yieldLine 0 = true := by decide +kernel

theorem test_permitExpired : ((after .permitExpired { cooking with permit := .running 3 }).pan 0).held = true ∧
    (after .permitExpired { cooking with permit := .running 3 }).permit = .expired := by decide +kernel

theorem test_shedDeadlineExpiry :
    (after (.shedDeadlineExpiry .l1) (cooking.setAccount .l1 ⟨100, 3680, 500, some ⟨100, 1⟩⟩)).stopLine 0 = true ∧
    (after (.shedDeadlineExpiry .l1) (cooking.setAccount .l1 ⟨100, 3680, 500, some ⟨100, 1⟩⟩)).account .l1 = ⟨100, 100, 0, none⟩ := by
  decide +kernel

theorem test_leaseExpiry : (after (.leaseExpiry 0) (cooking.setDesk 0 { cooking.desk 0 with lease := some 1 })).yieldLine 0 = true := by
  decide +kernel

theorem test_yieldTimeout : (after (.yieldTimeout 0)
    (cooking.setDesk 0 { cooking.desk 0 with state := .yielding, yield := some 1 })).stopLine 0 = true := by decide +kernel

theorem test_collectionExpiry : (after (.collectionExpiry 0)
      (ready.setDesk 0 { ready.desk 0 with collection := some 1 })).desk 0 =
    { Desk.initial with state := .joined } := by decide +kernel

theorem test_holdEnd : ((after (.holdEnd 0)
    (table.setDesk 0 { Desk.initial with state := .stopped, hold := some 1, holdEnd := .absent })).desk 0).state = .absent := by
  decide +kernel

theorem test_waitConditionCleared : ((after (.waitConditionCleared 0)
    (waiting.setCoil 1 (under ⟨0, 1⟩))).desk 0).desk = .complete 0 := by decide +kernel

/-- A millisecond passes on an empty queue. -/
theorem test_step_idle : (match step State.reset with
    | .next t => decide (t = { State.reset with now := 1 })
    | _ => false) = true := by decide +kernel

/-- An armed mark makes the next record written fail at its next use, which enters SAFE (R172, R166). -/
theorem test_safe : (after (.readPans .pl []) (after (.replySent .pl) (after (.hold .pl [1])
    (table.setMarks ⟨false, true, false⟩)))).faultLine = true := by decide +kernel

/-! ## The hypotheses of the statements are met -/

/-- The checks of a Sound state, as a Bool. -/
def soundB (s : State) : Bool :=
  allCoils.all (fun c => (s.coil c).codeOk) && allSlots.all (fun n => (s.pan n).codeOk) &&
    allGens.all (fun g => (s.desk g).orderOk) && s.levels.codeOk && decide (s.marks = TableMarks.clear)

theorem sound_of {s : State} (h : soundB s = true) : s.Sound := by
  simp only [soundB, Bool.and_eq_true, List.all_eq_true, decide_eq_true_eq] at h
  obtain ⟨⟨⟨⟨hc, hp⟩, ho⟩, hl⟩, hm⟩ := h
  exact ⟨fun c => hc c (List.mem_finRange c), fun n => hp n (List.mem_finRange n), fun g => ho g (List.mem_finRange g), hl, hm⟩

/-- RST is high, every port is IDLE and every code matches. -/
def Open (s : State) : Prop := (∀ l, s.Listens l) ∧ s.Sound

theorem open_of {s : State} (h : (!s.rstLow && s.ports.toList.all (fun p => decide (p.rx = .idle)) && soundB s) = true) : Open s := by
  simp only [Bool.and_eq_true, Bool.not_eq_true', List.all_eq_true, decide_eq_true_eq] at h
  refine ⟨fun l => ⟨h.1.1, h.1.2 _ ?_⟩, sound_of h.2⟩
  simp [State.port]

theorem open_reset : Open State.reset := open_of (by decide +kernel)
theorem open_table : Open table := open_of (by decide +kernel)
theorem open_cooking : Open cooking := open_of (by decide +kernel)
theorem open_ready : Open ready := open_of (by decide +kernel)
theorem open_waiting : Open waiting := open_of (by decide +kernel)

theorem test_hyps_idle : (State.reset.pending = [] ∧ State.reset.rstLow = false ∧ State.reset.Sound ∧ State.reset.dues = []) ∧
    ∃ s : State, s.pending = [] ∧ s.rstLow = false ∧ s.Sound ∧ s.dues ≠ [] :=
  ⟨⟨rfl, rfl, open_reset.2, by decide +kernel⟩, { table with permit := .running 0 }, rfl, rfl, sound_of (by decide +kernel),
    by decide +kernel⟩

/-- Nothing is due while a permit runs, and a timer at 0 is due. -/
theorem test_hyps_dues : (table.dues = [] ∧ table.pending = [] ∧ ∃ f, countOf .permitExpired = some f ∧ f table = some 5000) ∧
    Instr.timerDone 0 ∈ (table.setPan 0 { pan0 with timer := some 0 }).dues :=
  ⟨⟨by decide +kernel, rfl, _, rfl, rfl⟩, by decide +kernel⟩

theorem test_hyps_counts : (∃ f, countOf .permitExpired = some f ∧ f State.reset = none ∧ f { table with permit := .running 1 } = some 1) ∧
    (∃ f, countOf (.leaseExpiry 0) = some f ∧ f cooking = some 1500) ∧ (∃ f, countOf (.switchEnd 1) = some f ∧ f waiting = some 5) ∧
    { table with permit := .running 1 }.Sound :=
  ⟨⟨_, rfl, rfl, rfl⟩, ⟨_, rfl, rfl⟩, ⟨_, rfl, by decide +kernel⟩, sound_of (by decide +kernel)⟩

theorem test_hyps_powerOn : (after .rstTakenLow cooking).rstLow = true := rfl

/-- The invariants hold in a state with an order issued as well, and a step of it answers. -/
theorem test_hyps_invariants : QueueOk cooking ∧ RelaysOk cooking ∧ BudgetOk cooking ∧ ListsOk cooking ∧ ParamsOk cooking.params ∧
    LevelsOk cooking.levels ∧ cooking.Sound ∧ cooking.safe = false ∧ ∃ t, step cooking = .next t := by
  refine ⟨?_, ?_, ?_, ?_, ?_, ?_, open_cooking.2, rfl, ?_⟩
  · unfold QueueOk; decide +kernel
  · intro c hc
    have h : ∀ c : CoilNo, hasRelay c = false → (cooking.coil c).driver = .home ∧ (match (cooking.coil c).state with
        | .off m => decide (m = none)
        | .transfer _ _ _ => false
        | .switching _ _ => false
        | _ => true) = true := by decide +kernel
    obtain ⟨h1, h2⟩ := h c hc
    refine ⟨h1, ?_⟩
    revert h2; cases (cooking.coil c).state <;> simp
  · refine ⟨fun g => ?_, fun p => ?_⟩
    · fin_cases g <;> simp [DeskOk, cooking, held, table, State.desk, order0, State.reset, State.powerOn, Desk.initial]
    · unfold AccountOk State.loadOf; cases p <;> decide +kernel
  · unfold ListsOk; decide +kernel
  · unfold ParamsOk; decide +kernel
  · unfold LevelsOk; decide +kernel
  · have h : (match step cooking with | .next _ => true | _ => false) = true := by decide +kernel
    revert h; cases step cooking <;> simp

theorem test_hyps_ports : State.reset.rstLow = false ∧ (State.reset.port .pl).rx = .idle ∧
    ((State.reset.setPort .pl ⟨.inHand none Causes.none ⟨0, [], 0⟩, false, false⟩).port .pl).rx = .inHand none Causes.none ⟨0, [], 0⟩ ∧
    (∀ bytes, ((State.reset.setPort .pl ⟨.receiving bytes Causes.none 6, false, false⟩).port .pl).rx = .receiving bytes Causes.none 6) :=
  ⟨rfl, rfl, rfl, fun _ => rfl⟩

/-- An error-free SYNC starts a message and one with a parity error does not. -/
theorem test_hyps_sync : receivedByte (lineByte 0xC3) = ⟨0xC3, false, false⟩ ∧ receivedByte (lineByte 0xC3 ^^^ 0x100) ≠ ⟨0xC3, false, false⟩ ∧
    (receivedByte (lineByte 0xF8)).data.toNat = 248 ∧ (receivedByte (lineByte 0x56)).data = crc [0, 1] := by decide +kernel

/-- LEN 248 is kept and 249 is not; a CHECK is awaited after LEN + 1 bytes; a good STATUS and a good unknown kind. -/
theorem test_hyps_assembly : (248#8).toNat ≤ 248 ∧ ¬ (249#8).toNat ≤ 248 ∧ [(1 : Byte)].length = (0 : Byte).toNat + 1 ∧
    [(1 : Byte)].length ≠ (1 : Byte).toNat + 1 ∧ crc [0, 1] = 0x56 ∧ crc [0, 1] ≠ 0x57 ∧ ReqKind.status.code = 1 ∧
    ∀ k : ReqKind, k.code ≠ 0x81 :=
  ⟨by decide, by decide, by decide, by decide, by decide +kernel, by decide +kernel, rfl, fun k => by cases k <;> decide⟩

theorem test_hyps_badMessages : (⟨true, false, false, false, false⟩ : Causes).any = true := rfl

/-- SL's mark armed on an IDLE port with no reply under way, while the DONE of the CHECK TEST that set it is being sent,
and in a message whose gap timer runs out. -/
theorem test_hyps_armedLink : bodyFits (List.replicate 248 0) = true ∧ (∀ k : ReqKind, k.code ≠ 0x77) ∧
    (∃ s : State, s.rstLow = false ∧ (s.port .sl).rx = .idle ∧ (s.port .sl).forcedBad = true ∧ s.testReplyUnsent .sl = false) ∧
    (∃ s : State, s.rstLow = false ∧ (s.port .sl).rx = .idle ∧ (s.port .sl).forcedBad = true ∧ s.testReplyUnsent .sl = true) ∧
    ∃ s : State, s.rstLow = false ∧ (s.port .sl).rx = .receiving [0] Causes.none 6 ∧ (s.port .sl).forcedBad = true :=
  ⟨by decide +kernel, fun k => by cases k <;> decide, ⟨State.reset.setPort .sl ⟨.idle, false, true⟩, rfl, rfl, rfl, by decide +kernel⟩,
    ⟨after (.checkTest .pl [9]) table, by decide +kernel, by decide +kernel, by decide +kernel, by decide +kernel⟩,
    State.reset.setPort .sl ⟨.receiving [0] Causes.none 6, false, true⟩, rfl, rfl, rfl⟩

theorem test_hyps_routing : State.reset.Listens .pl ∧ bodyFits [0] = true ∧ (∀ k : ReqKind, k.code ≠ 0x00) ∧
    ¬ (ReqKind.hello = .status ∨ ((ReqKind.hello = .hello ∨ ReqKind.hello = .sweep ∨ ReqKind.hello = .fetch) ∧ ∃ g, Link.pl = .gl g) ∨
      ((ReqKind.hello = .setCap ∨ ReqKind.hello = .shed ∨ ReqKind.hello = .readLoad) ∧ Link.pl = .sl) ∨
      (0x11 ≤ ReqKind.hello.code ∧ ReqKind.hello.code ≤ 0x1E ∧ Link.pl = .pl)) ∧ ReqKind.status ∈ [ReqKind.status] ∧ [(0 : Byte)] ≠ [] :=
  ⟨open_reset.1 _, rfl, fun k => by cases k <;> decide, by simp [ReqKind.code], by simp, by simp⟩

theorem test_hyps_safe : ∃ s : State, s.safe = true ∧ (∀ l, s.Listens l) ∧ kindAllowed .hello (.gl 0) = true ∧
    ReqKind.hello ∉ [ReqKind.status, .restart, .readEvents] :=
  ⟨{ State.reset with safe := true }, rfl, open_reset.1, rfl, by decide⟩

theorem test_hyps_reports : cooking.Listens .pl ∧ cooking.Listens .sl ∧ cooking.safe = false ∧ (1#8).toNat ≤ 8 ∧ 1 ≤ (8#8).toNat ∧
    (8#8).toNat ≤ 8 ∧ 8 < (9#8).toNat ∧ (∀ n, (cooking.pan n).codeOk = true) ∧ (∀ c, (cooking.coil c).codeOk = true) :=
  ⟨open_cooking.1 _, open_cooking.1 _, rfl, by decide, by decide, by decide, by decide, open_cooking.2.pans, open_cooking.2.coils⟩

/-- The first and the last record can be the one that fails. -/
theorem test_hyps_badRecords :
    (∃ s : State, s.Listens .pl ∧ s.safe = false ∧ (s.pan 7).codeOk = false ∧ ∀ m, m < 7 → (s.pan m).codeOk = true) ∧
    ∃ s : State, s.Listens .pl ∧ s.safe = false ∧ (s.coil 0).codeOk = false ∧ ∀ d, d < 0 → (s.coil d).codeOk = true :=
  ⟨⟨State.reset.setPan 7 { Pan.freed 0 with codeOk := false }, open_reset.1 _, rfl, rfl, by decide +kernel⟩,
    ⟨State.reset.setCoil 0 { Coil.initial with codeOk := false }, open_reset.1 _, rfl, rfl, by decide +kernel⟩⟩

theorem test_hyps_configure : State.reset.Listens .pl ∧ State.reset.safe = false ∧ paramFrom 0 = none ∧ paramFrom 0x0D = some (.level 12) ∧
    paramFrom 0x27 = some .shedDeadline ∧ State.reset.levels.codeOk = true ∧ State.reset.paramFits 3600 (.level 12) = true ∧
    State.reset.paramFits 3610 (.level 12) = false ∧ State.reset.paramFits 2490 (.level 12) = false ∧
    (∀ g, State.reset.charge g = 0) ∧ (∃ g, cooking.charge g ≠ 0) ∧
    ({ State.reset with levels := ⟨State.reset.levels.watts, false⟩ } : State).Listens .pl :=
  ⟨open_reset.1 _, rfl, by decide +kernel, by decide +kernel, by decide +kernel, rfl, by decide +kernel, by decide +kernel,
    by decide +kernel, by decide +kernel, ⟨0, by decide +kernel⟩, open_reset.1 _⟩

theorem test_hyps_checkTest : targetFrom 0 = some .none ∧ targetFrom 9 = some (.link .sl) ∧ 9 < (10#8).toNat ∧ table.Listens .pl ∧
    (∀ g, table.charge g = 0) ∧ table.safe = false := ⟨by decide, by decide, by decide, open_table.1 _, by decide +kernel, rfl⟩

/-- A record that fails, one that an update leaves as it is, and one that it changes. -/
theorem test_hyps_updates : (∃ s : State, (s.coil 0).codeOk = false ∧ (s.pan 0).codeOk = false) ∧
    (table.coil 0).codeOk = true ∧ id (table.coil 0) = table.coil 0 ∧ Coil.repaired { under ⟨0, 1⟩ with fault := true } ≠ { under ⟨0, 1⟩ with fault := true } ∧
    (table.pan 0).codeOk = true ∧ Pan.boostDone (table.pan 0) ≠ table.pan 0 ∧
    ∃ o, ((held .built Desk.initial).desk 0).order = some o ∧ o.codeOk = true :=
  ⟨⟨(State.reset.setCoil 0 { Coil.initial with codeOk := false }).setPan 0 { Pan.freed 0 with codeOk := false }, rfl, rfl⟩,
    rfl, rfl, by decide, rfl, by decide +kernel, _, rfl, rfl⟩

theorem test_hyps_badOrder : ∃ (s : State) (o : Order), (s.desk 0).order = some o ∧ o.codeOk = false :=
  ⟨table.setDesk 0 { Desk.initial with order := some { order0 .built with codeOk := false } }, _, rfl, rfl⟩

theorem test_hyps_restart : cooking.Listens .pl ∧ (cooking.desk 0).state.inService = true ∧ (cooking.desk 1).state = .absent ∧
    (∀ o, (cooking.desk 1).order ≠ some o) :=
  ⟨open_cooking.1 _, by decide +kernel, rfl, fun o h => by have : (cooking.desk 1).order = none := rfl; rw [this] at h; contradiction⟩

theorem test_hyps_permit : table.Listens .pl ∧ table.Sound ∧ table.safe = false ∧ 1 ≤ (1#8).toNat ∧ (60#8).toNat ≤ 60 ∧
    (0#8).toNat = 0 ∧ 60 < (61#8).toNat := ⟨open_table.1 _, open_table.2, rfl, by decide, by decide, by decide, by decide⟩

/-- The pan of the table can be raised, lowered and left; its level can be 0 and 13. -/
theorem test_hyps_setLevel : cooking.Listens .pl ∧ cooking.Sound ∧ cooking.safe = false ∧ (cooking.pan 0).state ≠ .free ∧
    (cooking.pan 0).level = 13 ∧ (0 : Fin 14) < (cooking.pan 0).level ∧
    ((table.setPan 0 { pan0 with level := 0, boost := none }).pan 0).level < 13 ∧
    Open (table.setPan 0 { pan0 with level := 0, boost := none }) :=
  ⟨open_cooking.1 _, open_cooking.2, rfl, by decide +kernel, rfl, by decide +kernel, by decide +kernel, open_of (by decide +kernel)⟩

theorem test_hyps_setTimer : cooking.heating 0 = true ∧ wordFrom 0 0 = 0 ∧ wordFrom 0xFF 0xFF = 65535 ∧ cooking.Listens .pl ∧
    (cooking.pan 0).state ≠ .free := ⟨by decide +kernel, by decide, by decide, open_cooking.1 _, by decide +kernel⟩

theorem test_hyps_setWindow : cooking.Listens .pl ∧ cooking.Sound ∧ cooking.safe = false ∧ (3#8).toNat = (3 : WindowNo).val ∧
    (2 : Byte) = WindowMode.exclude.code ∧ (7#8).toNat ≤ 7 ∧ (5#8).toNat ≤ 5 ∧ (12#8).toNat = (12 : Fin 13).val ∧ 3 < (4#8).toNat ∧
    2 < (3#8).toNat ∧ 7 < (8#8).toNat ∧ 5 < (6#8).toNat ∧ 12 < (13#8).toNat :=
  ⟨open_cooking.1 _, open_cooking.2, rfl, by decide, by decide, by decide, by decide, by decide, by decide, by decide, by decide,
    by decide, by decide⟩

theorem test_hyps_enable : Open cooking ∧ (3#8).toNat < 16 ∧ (12#8).toNat < 16 ∧ (3#8) &&& (12#8) = 0 ∧
    (1#8).getLsbD (0 : Gen).val = true ∧ (cooking.desk 0).state.inService = true ∧
    ∃ s : State, Open s ∧ (s.desk 3).state = .disabled ∧ (8#8).getLsbD (3 : Gen).val = true :=
  ⟨open_cooking, by decide, by decide, by decide, by decide, by decide +kernel,
    State.reset.setDesk 3 { Desk.initial with state := .disabled }, open_of (by decide +kernel), rfl, by decide⟩

/-- A port in the middle of a message when its generator is disabled. -/
theorem test_hyps_enablePorts : ∃ s : State, s.Listens .pl ∧ s.Sound ∧ (s.desk 0).state = .joined ∧
    (s.port (.gl 0)).rx = .receiving [0] Causes.none 2 ∧ ((after (.enableGenerators .pl [0, 1]) s).port (.gl 0)).rx = .idle ∧
    ((after (.enableGenerators .pl [0, 2]) s).port (.gl 0)).rx = .receiving [0] Causes.none 2 :=
  ⟨table.setPort (.gl 0) ⟨.receiving [0] Causes.none 2, false, false⟩, ⟨rfl, by decide +kernel⟩, sound_of (by decide +kernel), rfl, rfl,
    by decide +kernel, by decide +kernel⟩

/-- A home coil of G1 that G0 drives as alternate in an order: it goes off pending when G1 is disabled, and G0 yields. -/
def lent : State := { cooking with
  coils := cooking.coils.set 2 { under ⟨0, 1⟩ with driver := .alternate, state := .driven ⟨0, 1⟩ 1 }
  pans := cooking.pans.set 0 { pan0 with footprint := [0, 1, 2] }
  desks := cooking.desks.set 1 { Desk.initial with state := .stopped } }

theorem test_disable_homeCoil : lent.Sound ∧ (lent.desk 1).state = .stopped ∧ homeGen 2 = 1 ∧ altGen 2 = some 0 ∧
    (match disableGen 1 lent with
      | .ok t => ((t.coil 2).state, (t.coil 2).coverage, (t.pan 0).footprint, t.yieldLine 0, t.events.map (·.kind))
      | .safe _ => (.free, none, [], false, [])) =
      (.releasing none 1 true, none, [0, 1], true, [.generatorStopped, .panMoved]) :=
  ⟨sound_of (by decide +kernel), rfl, rfl, by decide, by decide +kernel⟩

/-- A generator of each state that a disable tells apart, and a DISABLED one to enable. -/
theorem test_hyps_generators : cooking.Sound ∧ (cooking.desk 1).state = .absent ∧ (cooking.desk 0).state = .ordered ∧
    ∃ s : State, s.Sound ∧ (s.desk 3).state = .disabled :=
  ⟨open_cooking.2, rfl, rfl, State.reset.setDesk 3 { Desk.initial with state := .disabled }, sound_of (by decide +kernel), rfl⟩

/-- STOP ALL with a generator to stop and with none. -/
theorem test_hyps_stopAll : (allGens.filter fun g => (cooking.desk g).state.inService) = [0] ∧ Open cooking ∧
    (allGens.filter fun g => (State.reset.desk g).state.inService) = [] ∧ Open State.reset :=
  ⟨by decide +kernel, open_cooking, by decide +kernel, open_reset⟩

/-- Fields just outside their ranges, a stale tag, a FREE slot, and generators out of service. -/
theorem test_hyps_refusals : cooking.safe = false ∧ 7 < (8#8).toNat ∧ 15 < (16#8).toNat ∧ 13 < (14#8).toNat ∧
    (cooking.pan 7).state = .free ∧ (cooking.pan 0).tag ≠ 0 ∧ 16 ≤ (16#8).toNat ∧ 7400 < wordFrom 0xF2 0x1C ∧ wordFrom 5 0 % 10 ≠ 0 ∧
    wordFrom 99 0 < 100 ∧ 10000 < wordFrom 0x11 0x27 ∧ (cooking.desk 1).state = .absent ∧ cooking.Listens (.gl 1) ∧
    24 < (25#8).toNat ∧ 47 < (48#8).toNat ∧ (3#8).toNat % 4 = 3 ∧ table.issuedOrder 0 = none ∧ (5 : Byte) ≠ (table.desk 0).lastConfirmed ∧
    (table.desk 0).state.inService = true ∧
    (∃ s : State, s.Listens (.gl 0) ∧ s.safe = false ∧ (s.desk 0).state = .disabled) ∧
    ∃ s : State, s.Listens (.gl 0) ∧ s.safe = false ∧ (s.desk 0).state = .stopped :=
  ⟨rfl, by decide, by decide, by decide, by decide +kernel, by decide +kernel, by decide, by decide, by decide, by decide, by decide, rfl,
    open_cooking.1 _, by decide, by decide, by decide, by decide +kernel, by decide +kernel, by decide +kernel,
    ⟨table.setDesk 0 { Desk.initial with state := .disabled }, open_table.1 _, rfl, rfl⟩,
    ⟨table.setDesk 0 { Desk.initial with state := .stopped }, open_table.1 _, rfl, rfl⟩⟩

theorem test_hyps_hello : Open cooking ∧ cooking.safe = false ∧ (cooking.desk 0).state ≠ .disabled ∧ (cooking.desk 0).state.inService = true ∧
    (cooking.desk 1).state.inService = false :=
  ⟨open_cooking, rfl, by decide +kernel, by decide +kernel, by decide +kernel⟩

theorem test_hyps_sweep : Open cooking ∧ cooking.safe = false ∧ bodyFits [1, 47, 15, 0x82] = true ∧
    sweepFrom [1, 47, 15, 0x82] = some [⟨47, 15, .hot, true⟩] ∧ (cooking.desk 0).state ≠ .absent :=
  ⟨open_cooking, rfl, by decide, by decide +kernel, by decide +kernel⟩

theorem test_hyps_fetchDelivers : Open table ∧ table.safe = false ∧ (table.desk 0).state.inService = true ∧ table.issuedOrder 0 = none ∧
    (table.desk 0).desk = .empty ∧ table.waitBlocked 0 = false ∧ Open ready ∧ (ready.desk 0).desk = .complete 0 ∧
    (ready.desk 0).order = some (order0 .built) ∧ ready.issuedOrder 0 = none ∧ (ready.desk 0).state.inService = true :=
  ⟨open_table, rfl, by decide +kernel, by decide +kernel, rfl, by decide +kernel, open_ready, rfl, rfl, by decide +kernel,
    by decide +kernel⟩

theorem test_hyps_fetchConfirms : Open cooking ∧ cooking.issuedOrder 0 = some (order0 (.issued 500)) ∧
    (cooking.desk 0).state.inService = true ∧ (0 : Byte) ≠ (order0 (.issued 500)).number :=
  ⟨open_cooking, by decide +kernel, by decide +kernel, by decide⟩

/-- The pan of the table with a bad code, coil 1 with a bad code, and G0's order, ISSUED or BUILT, with a bad code. -/
def badPan : State := table.setPan 0 { pan0 with codeOk := false }
def badCoil : State := table.setCoil 1 { under ⟨0, 1⟩ with codeOk := false }
def badIssued : State := cooking.setDesk 0 { cooking.desk 0 with order := some { order0 (.issued 500) with codeOk := false } }
def badBuilt : State := ready.setDesk 0 { ready.desk 0 with order := some { order0 .built with codeOk := false } }

/-- Requests that meet a check that fails: DONE with the fields of the FREE slot (R88), a SWEEP of which the second entry fails
and the third is not applied (R28), and a HELLO and FETCHes refused with SAFE (R159). -/
theorem test_failedChecks :
    replied (.setLevel .pl [0, 1, 5]) badPan .pl = some (0x81, [6, 0, 1, 0, 0, 0xFF, 0xFF, 0xFF, 0xFF]) ∧
    replied (.setTimer .pl [0, 1, 9, 0, 3]) badPan .pl = some (0x81, [6, 0, 1, 0, 0, 0xFF, 0xFF, 0xFF, 0xFF]) ∧
    replied (.hold .pl [1]) badPan .pl = some (0x81, [6, 0]) ∧ replied (.stopAll .pl []) badPan .pl = some (0x81, [6]) ∧
    replied (.sweep (.gl 0) [3, 0, 15, 2, 1, 9, 0, 8, 9, 0]) badCoil (.gl 0) = some (0x81, [6, 2]) ∧
    ((after (.sweep (.gl 0) [3, 0, 15, 2, 1, 9, 0, 8, 9, 0]) badCoil).coil 0).hot = true ∧
    replied (.hello (.gl 0) []) badIssued (.gl 0) = some (0x84, [6, 0x07]) ∧
    replied (.fetch (.gl 0) [1]) badIssued (.gl 0) = some (0x84, [6, 0x07]) ∧
    replied (.fetch (.gl 0) [2]) badIssued (.gl 0) = some (0x84, [6, 0x07]) ∧
    replied (.fetch (.gl 0) [0]) badBuilt (.gl 0) = some (0x84, [6, 0x07]) ∧
    replied (.fetch (.gl 0) [0]) badPan (.gl 0) = some (0x84, [6, 0x07]) := by decide +kernel

/-- The work that these requests abandon, an order built under an armed mark, and the ports that listen. -/
theorem test_hyps_failedChecks :
    (∀ l, badPan.Listens l ∧ badCoil.Listens l ∧ badIssued.Listens l ∧ badBuilt.Listens l) ∧
    (∃ v, editPan 0 (fun p => { p with held := true }) badPan = .safe v) ∧ (∃ v, releaseOrder 0 false badIssued = .safe v) ∧
    (∃ v, stopGen 0 .orderMismatch badIssued = .safe v) ∧ (∃ v, buildOrder 0 badPan = .safe v) ∧
    badIssued.issuedOrder 0 = some { order0 (.issued 500) with codeOk := false } ∧ badBuilt.issuedOrder 0 = none ∧
    (badBuilt.desk 0).desk = .complete 0 ∧ (badPan.desk 0).desk = .empty ∧ badPan.waitBlocked 0 = false ∧
    ∃ s s1 o, s.Listens (.gl 0) ∧ buildOrder 0 s = .ok s1 ∧ (s1.desk 0).order = some o ∧ o.codeOk = false := by
  have fails : ∀ {f : Flow}, f.isOk = false → ∃ v, f = .safe v := fun {f} h => by cases f <;> simp_all [Flow.isOk]
  refine ⟨fun l => ⟨open_table.1 l, open_table.1 l, open_cooking.1 l, open_ready.1 l⟩, fails (by decide +kernel), fails (by decide +kernel),
    fails (by decide +kernel), fails (by decide +kernel), by decide +kernel, by decide +kernel, rfl, rfl, by decide +kernel,
    table.setMarks ⟨false, false, true⟩, ?_⟩
  have h : (match buildOrder 0 (table.setMarks ⟨false, false, true⟩) with
    | .ok t => (t.desk 0).orderOk
    | .safe _ => true) = false := by decide +kernel
  split at h
  · next t ht =>
    unfold Desk.orderOk at h
    split at h
    · next o ho => exact ⟨t, o, open_table.1 _, ht, ho, h⟩
    · contradiction
  · contradiction

/-- The eligibility of a pan, an excluded coil, and the generators that a coil can be driven by. -/
theorem test_hyps_eligible : table.heating 0 = true ∧ table.heating 1 = false ∧
    (after (.setWindow .pl [3, 2, 0, 0, 0, 0, 0]) table).excluded 0 = true ∧ table.excluded 0 = false ∧
    altGen 1 = some 1 ∧ altGen 2 = some 0 ∧ altGen 7 = none ∧ driverAt 26 .alternate = 0 ∧ relayNumber 46 = 36 := by decide +kernel

/-- A desk that waits at its repeat limit, one below it, one EMPTY; and a replacement. -/
theorem test_hyps_fetchWaits : Open waiting ∧ waiting.issuedOrder 0 = none ∧ (waiting.desk 0).state.inService = true ∧
    (waiting.desk 0).desk = .waiting 0 ∧ waiting.params.repeatLimit < (waiting.desk 0).repeats + 1 ∧ waiting.waitBlocked 0 = true ∧
    (∃ s : State, s.Listens (.gl 0) ∧ (s.desk 0).desk = .waiting 0 ∧ (s.desk 0).repeats + 1 ≤ s.params.repeatLimit) ∧
    (∃ s : State, s.Listens (.gl 0) ∧ (s.desk 0).desk = .empty ∧ (s.desk 0).state.inService = true ∧ s.waitBlocked 0 = true) ∧
    ∃ s : State, s.Listens (.gl 0) ∧ (s.desk 0).desk = .waiting 7 ∧ (0 : Byte) ≠ 7 :=
  ⟨open_waiting, by decide +kernel, by decide +kernel, rfl, by decide +kernel, by decide +kernel,
    ⟨waiting.setDesk 0 { waiting.desk 0 with repeats := 63 }, open_waiting.1 _, rfl, by decide +kernel⟩,
    ⟨waiting.setDesk 0 { Desk.initial with state := .joined }, open_waiting.1 _, rfl, by decide +kernel, by decide +kernel⟩,
    ⟨waiting.setDesk 0 { waiting.desk 0 with desk := .waiting 7 }, open_waiting.1 _, rfl, by decide⟩⟩

/-- A target at the load, one below it, and the bounds of the target and of the deadline. -/
theorem test_hyps_setCap : Open cooking ∧ cooking.safe = false ∧ wordFrom 0xE8 0x1C = 7400 ∧ wordFrom 0xF4 1 = (cooking.account .l1).load ∧
    wordFrom 0xEA 1 < (cooking.account .l1).load ∧ wordFrom 0xEA 1 % 10 = 0 ∧ wordFrom 100 0 = 100 ∧ wordFrom 0x10 0x27 = 10000 :=
  ⟨open_cooking, rfl, by decide, by decide +kernel, by decide +kernel, by decide, by decide, by decide⟩

/-- A switch that ends with no owner, with an owner, astray, and at rest. -/
theorem test_hyps_switchEnd : hasRelay 1 = true ∧
    (∃ s : State, s.rstLow = false ∧ s.Sound ∧ (s.coil 1).state = .switching (some ⟨0, 1⟩) 0 ∧ (s.coil 1).driver = .home ∧
      (s.pan 0).plan = some (.single 0)) ∧
    (∃ s : State, s.rstLow = false ∧ s.Sound ∧ (s.coil 1).state = .switching none 0 ∧ (s.coil 1).driver = .alternate ∧
      altGen 1 = some 1 ∧ (s.desk 1).state = .absent) ∧
    (∃ s : State, s.rstLow = false ∧ s.Sound ∧ (s.coil 1).state = .switching (some ⟨0, 1⟩) 0 ∧ (s.pan 0).plan = some (.single 1) ∧
      plannedPosition 1 (.single 1) ≠ (s.coil 1).driver ∧ (s.pan 0).tag = 1) ∧
    ∃ s : State, s.rstLow = false ∧ s.Sound ∧ (s.coil 1).state = .off (some 0) :=
  ⟨rfl, ⟨table.setCoil 1 { under ⟨0, 1⟩ with state := .switching (some ⟨0, 1⟩) 0 }, rfl, sound_of (by decide +kernel), rfl, rfl, rfl⟩,
    ⟨table.setCoil 1 { under ⟨0, 1⟩ with driver := .alternate, state := .switching none 0 }, rfl, sound_of (by decide +kernel), rfl, rfl,
      by decide, rfl⟩,
    ⟨(table.setCoil 1 { under ⟨0, 1⟩ with state := .switching (some ⟨0, 1⟩) 0 }).setPan 0 { pan0 with plan := some (.single 1) }, rfl,
      sound_of (by decide +kernel), rfl, rfl, by decide +kernel, rfl⟩,
    ⟨table.setCoil 1 { Coil.initial with state := .off (some 0) }, rfl, sound_of (by decide +kernel), rfl⟩⟩

theorem test_hyps_panExpiries :
    (∃ s : State, s.rstLow = false ∧ s.Sound ∧ (s.pan 0).state = .lost ∧ (s.pan 0).lostRemaining = some 0) ∧
    (∃ s : State, s.rstLow = false ∧ s.Sound ∧ s.heating 0 = true ∧ (s.pan 0).boost = some 0) ∧
    (∃ s : State, s.rstLow = false ∧ s.Sound ∧ s.heating 0 = true ∧ (s.pan 0).timer = some 1 ∧ s.partSecond 0 = 1000) ∧
    (∃ s : State, s.rstLow = false ∧ s.Sound ∧ s.heating 0 = true ∧ (s.pan 0).timer = some (0 + 2) ∧ s.partSecond 0 = 1000) ∧
    ∃ s : State, s.rstLow = false ∧ s.Sound ∧ s.heating 0 = true ∧ (s.pan 0).timer = some 0 :=
  ⟨⟨table.setPan 0 { pan0 with state := .lost, lostRemaining := some 0 }, rfl, sound_of (by decide +kernel), rfl, rfl⟩,
    ⟨table.setPan 0 { pan0 with boost := some 0 }, rfl, sound_of (by decide +kernel), by decide +kernel, rfl⟩,
    ⟨(table.setPan 0 { pan0 with timer := some 1 }).setPartSecond 0 1000, rfl, sound_of (by decide +kernel), by decide +kernel, rfl, rfl⟩,
    ⟨(table.setPan 0 { pan0 with timer := some 2 }).setPartSecond 0 1000, rfl, sound_of (by decide +kernel), by decide +kernel, rfl, rfl⟩,
    ⟨table.setPan 0 { pan0 with timer := some 0 }, rfl, sound_of (by decide +kernel), by decide +kernel, rfl⟩⟩

theorem test_hyps_permitExpires : ∃ s : State, s.rstLow = false ∧ s.Sound ∧ s.permit = .running 0 :=
  ⟨{ cooking with permit := .running 0 }, rfl, sound_of (by decide +kernel), rfl⟩

theorem test_hyps_deadline : ∃ (s : State) (x : ShedTimes), s.rstLow = false ∧ s.Sound ∧ BudgetOk s ∧ (s.account .l1).shed = some x ∧
    x.remaining = 0 := by
  refine ⟨cooking.setAccount .l1 ⟨100, 3680, 500, some ⟨100, 0⟩⟩, ⟨100, 0⟩, rfl, sound_of (by decide +kernel), ⟨fun g => ?_, fun p => ?_⟩, rfl, rfl⟩
  · fin_cases g <;> simp [DeskOk, cooking, held, table, State.desk, State.setAccount, order0, State.reset, State.powerOn, Desk.initial]
  · unfold AccountOk State.loadOf; cases p <;> decide +kernel

theorem test_hyps_leaseAndYield :
    (∃ s : State, s.rstLow = false ∧ (s.desk 0).lease = some 0 ∧ (s.issuedOrder 0).isSome = true ∧ (s.desk 0).state = .ordered) ∧
    ∃ s : State, s.rstLow = false ∧ s.Sound ∧ (s.desk 0).lease = some 0 ∧ (s.desk 0).yield = some 0 ∧ (s.desk 0).state = .yielding :=
  ⟨⟨cooking.setDesk 0 { cooking.desk 0 with lease := some 0 }, rfl, rfl, by decide +kernel, by decide +kernel⟩,
    ⟨cooking.setDesk 0 { cooking.desk 0 with state := .yielding, lease := some 0, yield := some 0 }, rfl, sound_of (by decide +kernel),
      rfl, rfl, rfl⟩⟩

theorem test_hyps_collectionAndWait :
    (∃ s : State, s.rstLow = false ∧ s.Sound ∧ (s.desk 0).collection = some 0 ∧ (s.desk 0).desk = .complete 0 ∧
      (s.desk 0).order = some (order0 .built)) ∧
    (waiting.desk 0).desk = .waiting 0 ∧ waiting.waitBlocked 0 = true ∧
    ∃ s : State, s.rstLow = false ∧ s.Sound ∧ (s.desk 0).desk = .waiting 0 ∧ s.waitBlocked 0 = false :=
  ⟨⟨ready.setDesk 0 { ready.desk 0 with collection := some 0 }, rfl, sound_of (by decide +kernel), rfl, rfl, rfl⟩, rfl,
    by decide +kernel, ⟨waiting.setCoil 1 (under ⟨0, 1⟩), rfl, sound_of (by decide +kernel), rfl, by decide +kernel⟩⟩

theorem test_hyps_holdEnds : ∀ e : HoldEnd, ∃ s : State, s.rstLow = false ∧ s.Sound ∧ (s.desk 0).state = .stopped ∧
    (s.desk 0).hold = some 0 ∧ (s.desk 0).holdEnd = e := by
  intro e
  refine ⟨State.reset.setDesk 0 { Desk.initial with state := .stopped, hold := some 0, holdEnd := e }, rfl, sound_of ?_, rfl, rfl, rfl⟩
  cases e <;> decide +kernel

theorem test_hyps_orders : cooking.Sound ∧ (cooking.desk 0).order = some (order0 (.issued 500)) ∧ cooking.inOrder 0 1 0 = true ∧
    ready.Sound ∧ (ready.desk 0).order = some (order0 .built) ∧ (ready.desk 0).desk = .complete 0 ∧ (table.desk 0).order = none ∧
    (cooking.desk 0).state = .ordered ∧ StopCause.disable ≠ .safe ∧
    ∃ s : State, s.Sound ∧ (s.issuedOrder 0).isSome = true ∧ (s.desk 0).state ≠ .ordered :=
  ⟨open_cooking.2, rfl, by decide +kernel, open_ready.2, rfl, rfl, rfl, rfl, by decide,
    cooking.setDesk 0 { cooking.desk 0 with state := .yielding }, sound_of (by decide +kernel), by decide +kernel, by decide +kernel⟩

theorem test_hyps_confirmed : table.Sound ∧ (table.pan 7).state = .free ∧ table.freeSlot = some 1 :=
  ⟨open_table.2, by decide +kernel, by decide +kernel⟩

/-- A queue with room for one more, and a full one. -/
theorem test_hyps_posting : ∀ e : Event, (List.replicate 15 e).length < 16 ∧ 16 ≤ (List.replicate 16 e).length := by simp

/-- The table with two more pans on coils 8 and 9 of G0, and coil 1 with no owner. -/
def crowd : State := { table with
  coils := ((table.coils.set 1 { under ⟨0, 1⟩ with state := .free }).set 8 (under ⟨1, 1⟩)).set 9 (under ⟨2, 1⟩)
  pans := ((table.pans.set 0 { pan0 with footprint := [0] }).set 1 { pan0 with footprint := [8], level := 1, debt := 3, boost := none }).set 2
    { pan0 with footprint := [9], level := 1, boost := none }
  priority := [2, 0, 1] }

/-- Three candidates: the one with a debt and the one first in the Priority List have a leg, the third a debt of 1. -/
theorem test_hyps_build : crowd.Sound ∧ ListsOk crowd ∧ cooking.Sound ∧ ListsOk cooking ∧
    (match buildOrder 0 crowd with
      | .ok t => (((t.desk 0).order.map fun o => o.legs.map fun l => (l.inverter, l.pan.slot)),
          (allSlots.take 3).map (fun n => (t.pan n).debt), (t.pan 0).unserved)
      | .safe _ => (none, [], 0)) = (some [(.a, 1), (.b, 2)], [1, 0, 0], 1) := by
  refine ⟨sound_of (by decide +kernel), ?_, open_cooking.2, ?_, ?_⟩
  · unfold ListsOk; decide +kernel
  · unfold ListsOk; decide +kernel
  · decide +kernel

/-- A RESTART stop meets no pending shed, and a stop of another cause may. -/
theorem test_hyps_stops : (∀ p, (cooking.account p).shed = none) ∧ StopCause.restart ≠ .safe ∧
    ∃ s : State, s.Sound ∧ (s.account .l1).shed ≠ none ∧ (s.desk 0).state.inService = true :=
  ⟨fun p => by cases p <;> decide +kernel, by decide,
    cooking.setAccount .l1 ⟨100, 3680, 500, some ⟨100, 5⟩⟩, sound_of (by decide +kernel), by decide +kernel, by decide +kernel⟩

/-- Every slot taken and a candidate due; a candidate not due. -/
theorem test_hyps_refused : ∃ (s : State) (c d : Candidate), (∀ n, (s.pan n).state ≠ .free) ∧ s.params.confirmCount ≤ c.count ∧ c.count ≠ 0 ∧
    8 ≤ c.total ∧ d.count < s.params.confirmCount :=
  ⟨{ table with pans := Vector.ofFn fun _ => pan0 }, ⟨[0], ⟨0, 0⟩, 8, 3, false⟩, ⟨[0], ⟨0, 0⟩, 8, 0, false⟩, by decide +kernel, by decide +kernel,
    by decide, by decide, by decide +kernel⟩

/-- Three pans on one component divide it: each keeps the coil it held, and coil 1 goes to the lowest slot of those that hold as much. -/
theorem test_hyps_evaluation : crowd.Sound ∧ crowd.components.map (·.coils) = [[0, 1, 8, 9]] ∧
    (crowd.picks crowd.components).map (·.slot) = [0, 1, 2] ∧
    (match evaluate crowd with
      | .ok t => (allSlots.take 3).map fun n => (t.pan n).footprint
      | .safe _ => []) = [[0, 1], [8], [9]] :=
  ⟨sound_of (by decide +kernel), by decide +kernel, by decide +kernel, by decide +kernel⟩

/-- A candidate that a component renews, and a LOST pan that it would bring back. -/
theorem test_hyps_candidates : (table.components.Pairwise fun k m => k.coils.head? < m.coils.head?) ∧ table.components ≠ [] ∧
    (∃ s : State, s.Sound ∧ s.candidates = [⟨[1, 2], ⟨4, 0⟩, 20, 1, false⟩] ∧
      (match stepCandidates table.components s with
        | .ok t => t.candidates
        | .safe _ => []) = [⟨[0, 1], ⟨2, 0⟩, 24, 2, false⟩]) ∧
    ∃ s : State, s.Sound ∧ (s.pan 0).state = .lost ∧ table.components.map s.returning = [some 0] := by
  have h : table.components = [⟨[0, 1], 24, ⟨2, 0⟩⟩] := by decide +kernel
  refine ⟨by simp [h], by simp [h], ⟨{ table with candidates := [⟨[1, 2], ⟨4, 0⟩, 20, 1, false⟩] }, sound_of (by decide +kernel), rfl, by decide +kernel⟩,
    table.setPan 0 { pan0 with state := .lost, footprint := [], lostRemaining := some 9 }, sound_of (by decide +kernel), rfl, by decide +kernel⟩

theorem test_hyps_components : (table.coil 0).qualifies = true ∧ (table.components.map (·.coils)) = [[0, 1]] ∧
    (table.components.map (·.total)) = [24] := by decide +kernel

end Sys2Proof.Tests
end

/-! PROOFS. What a build does to the Coil Map when every check code is valid (R9): the checks pass, each update is a plain
replacement of the record, and the only coils replaced are those of the new order's legs. -/

namespace Sys2Proof.Machine

/-! ## Checks and edits with every code valid -/

theorem Flow.ok_andThen (s : State) (k : Op) : (Flow.ok s).andThen k = k s := rfl

theorem checkCoil_of_sound {s : State} (hs : s.Sound) (c : CoilNo) : checkCoil c s = .ok s := by
  simp [checkCoil, hs.coils c]

theorem checkPan_of_sound {s : State} (hs : s.Sound) (n : Slot) : checkPan n s = .ok s := by
  simp [checkPan, hs.pans n]

theorem checkLevels_of_sound {s : State} (hs : s.Sound) : checkLevels s = .ok s := by
  simp [checkLevels, hs.levels]

theorem State.setCoil_coil (s : State) (c : CoilNo) : s.setCoil c (s.coil c) = s := by
  simp [State.setCoil, State.coil]

theorem State.setPan_pan (s : State) (n : Slot) : s.setPan n (s.pan n) = s := by
  simp [State.setPan, State.pan]

/-- With no mark armed, the fresh code of a written record is valid. -/
theorem State.Sound.writeCoil_eq {s : State} (hs : s.Sound) (c : CoilNo) {r : Coil} (hr : r.codeOk = true) :
    s.writeCoil c r = s.setCoil c r := by
  have hm := hs.marks
  obtain ⟨⟩ := r
  cases s
  simp_all [State.writeCoil, State.setCoil, State.setMarks, TableMarks.clear]

theorem State.Sound.writePan_eq {s : State} (hs : s.Sound) (n : Slot) {p : Pan} (hp : p.codeOk = true) :
    s.writePan n p = s.setPan n p := by
  have hm := hs.marks
  obtain ⟨⟩ := p
  cases s
  simp_all [State.writePan, State.setPan, State.setMarks, TableMarks.clear]

theorem State.Sound.setCoil {s : State} (hs : s.Sound) (c : CoilNo) {r : Coil} (hr : r.codeOk = true) :
    (s.setCoil c r).Sound := by
  refine ⟨fun i => ?_, hs.pans, hs.orders, hs.levels, hs.marks⟩
  rw [State.coil_setCoil]
  split
  · exact hr
  · exact hs.coils i

theorem State.Sound.setPan {s : State} (hs : s.Sound) (n : Slot) {p : Pan} (hp : p.codeOk = true) :
    (s.setPan n p).Sound := by
  refine ⟨hs.coils, fun i => ?_, hs.orders, hs.levels, hs.marks⟩
  rw [State.pan_setPan]
  split
  · exact hp
  · exact hs.pans i

/-- Whether or not a field changes, an update of a coil record replaces it. -/
theorem editCoil_of_sound {s : State} (hs : s.Sound) (c : CoilNo) {f : Coil → Coil} (hf : (f (s.coil c)).codeOk = true) :
    editCoil c f s = .ok (s.setCoil c (f (s.coil c))) := by
  simp only [editCoil, checkCoil_of_sound hs, Flow.ok_andThen]
  split
  · next h => rw [h, State.setCoil_coil]
  · rw [hs.writeCoil_eq c hf]

theorem editPan_of_sound {s : State} (hs : s.Sound) (n : Slot) {f : Pan → Pan} (hf : (f (s.pan n)).codeOk = true) :
    editPan n f s = .ok (s.setPan n (f (s.pan n))) := by
  simp only [editPan, checkPan_of_sound hs, Flow.ok_andThen]
  split
  · next h => rw [h, State.setPan_pan]
  · rw [hs.writePan_eq n hf]

/-! ## Work for each item of a list -/

theorem forEach_eq_self {α : Type} {work : α → Op} {s : State} (h : ∀ x, work x s = .ok s) :
    ∀ l, forEach work l s = .ok s
  | [] => rfl
  | x :: xs => by simp only [forEach, h x, Flow.ok_andThen, forEach_eq_self h xs]

/-- A property that the work on each item completes with and keeps, the work on all of them completes with and keeps. -/
theorem forEach_keeps {α : Type} {work : α → Op} {P : State → Prop} (h : ∀ x s, P s → ∃ t, work x s = .ok t ∧ P t) :
    ∀ (l : List α) (s : State), P s → ∃ t, forEach work l s = .ok t ∧ P t
  | [], s, hs => ⟨s, rfl, hs⟩
  | x :: xs, s, hs => by
    obtain ⟨u, hu, hPu⟩ := h x s hs
    simpa only [forEach, hu, Flow.ok_andThen] using forEach_keeps h xs u hPu

/-! ## The parts of a build -/

theorem readForBuild_of_sound {s : State} (hs : s.Sound) : readForBuild s = .ok s := by
  refine forEach_eq_self (fun n => ?_) _
  simp only [checkPan_of_sound hs, Flow.ok_andThen, doIf]
  split
  · exact forEach_eq_self (checkCoil_of_sound hs) _
  · rfl

theorem builtPan_codeOk (g : Gen) (cands chosen : List Slot) (fits : List Fit) (n : Slot) (p : Pan) :
    (builtPan g cands chosen fits n p).codeOk = p.codeOk := by
  unfold builtPan
  split
  · rfl
  · split <;> rfl

/-- The debts and masks a build writes leave the Coil Map alone. -/
theorem editBuiltPans_of_sound {s : State} (hs : s.Sound) (g : Gen) (cands chosen : List Slot) (fits : List Fit)
    (l : List Slot) :
    ∃ t, forEach (fun n => editPan n (builtPan g cands chosen fits n)) l s = .ok t ∧ t.Sound ∧ t.coils = s.coils := by
  refine forEach_keeps (P := fun t => t.Sound ∧ t.coils = s.coils) (fun n u ⟨hu, hc⟩ => ?_) l s ⟨hs, rfl⟩
  have hok : (builtPan g cands chosen fits n (u.pan n)).codeOk = true := by rw [builtPan_codeOk, hu.pans n]
  exact ⟨_, editPan_of_sound hu n hok, hu.setPan n hok, by rw [State.coils_setPan, hc]⟩

theorem coil_writeOrder (s : State) (g : Gen) (legs : List Leg) (c : CoilNo) : (s.writeOrder g legs).coil c = s.coil c := rfl

theorem State.Sound.writeOrder {s : State} (hs : s.Sound) (g : Gen) (legs : List Leg) : (s.writeOrder g legs).Sound :=
  (Update.order (w := .orders) (D := fun _ => True) s g legs trivial).sound hs

/-- The order written has these legs, and its number becomes the last one assigned (R134). -/
theorem order_writeOrder (s : State) (g : Gen) (legs : List Leg) :
    ∃ o, ((s.writeOrder g legs).desk g).order = some o ∧ o.legs = legs ∧
      ((s.writeOrder g legs).alloc g).lastNumber = o.number := by
  simp [State.writeOrder]

theorem taken_codeOk (n : Byte) (r : Coil) : (r.taken n).codeOk = r.codeOk := by
  unfold Coil.taken
  split <;> rfl

theorem taken_claimed {r : Coil} {p : PanId} (h : r.state = .claimed p) (n : Byte) :
    r.taken n = { r with state := .driven p n } := by
  simp [Coil.taken, h]

/-- A coil in two places of the list is taken once. -/
theorem taken_taken (n : Byte) (r : Coil) : (r.taken n).taken n = r.taken n := by
  obtain ⟨_, _, _, _, st, _⟩ := r
  cases st <;> rfl

/-- Taking the coils of a list changes these coils and nothing else. -/
theorem forEach_taken_of_sound (n : Byte) : ∀ (l : List CoilNo) {s : State}, s.Sound →
    ∃ t, forEach (fun c => editCoil c (Coil.taken n)) l s = .ok t ∧ t.desks = s.desks ∧
      ∀ i, t.coil i = if i ∈ l then (s.coil i).taken n else s.coil i
  | [], s, _ => ⟨s, rfl, rfl, by simp⟩
  | c :: cs, s, hs => by
    have hok : ((s.coil c).taken n).codeOk = true := by rw [taken_codeOk, hs.coils c]
    obtain ⟨t, ht, hd, hc⟩ := forEach_taken_of_sound n cs (hs.setCoil c hok)
    refine ⟨t, by simp only [forEach, editCoil_of_sound hs c hok, Flow.ok_andThen, ht], hd, fun i => ?_⟩
    rw [hc i, State.coil_setCoil]
    by_cases hi : i = c
    · subst hi
      simp [taken_taken]
    · simp [hi]

/-- The events of R137 change no coil and no desk. -/
theorem postPowers_frame (g : Gen) (before s : State) :
    (postPowers g before s).coils = s.coils ∧ (postPowers g before s).desks = s.desks := by
  unfold postPowers
  refine List.foldlRecOn allSlots _ (motive := fun t : State => t.coils = s.coils ∧ t.desks = s.desks) ⟨rfl, rfl⟩ ?_
  intro t ht n _
  split
  · exact ht
  · split
    · simpa [State.postPower] using ht
    · split
      · simpa [State.postPower] using ht
      · exact ht

/-- A build completes; its order has the legs the Allocator lays out, and the coils of these legs are the ones taken. -/
theorem buildOrder_of_sound {s : State} (hs : s.Sound) (g : Gen) :
    ∃ t o chosen fits, buildOrder g s = .ok t ∧ (t.desk g).order = some o ∧ o.legs = s.legsFor g chosen fits ∧
      ∀ c, t.coil c = if ∃ l ∈ o.legs, c ∈ l.coils then (s.coil c).taken o.number else s.coil c := by
  let chosen := s.choose (s.candidatesFor g)
  let legs := s.legsFor g chosen (s.fits g chosen)
  obtain ⟨u, hu, hus, huc⟩ := editBuiltPans_of_sound hs g (s.candidatesFor g) chosen (s.fits g chosen) allSlots
  obtain ⟨o, ho, hlegs, hnumber⟩ := order_writeOrder u g legs
  obtain ⟨v, hv, hvd, hvc⟩ := forEach_taken_of_sound o.number (legs.flatMap (·.coils)) (hus.writeOrder g legs)
  obtain ⟨hpc, hpd⟩ := postPowers_frame g s v
  have hlevels : doIf (!chosen.isEmpty) checkLevels s = .ok s := by
    unfold doIf
    split
    · exact checkLevels_of_sound hs
    · rfl
  have htake : takeCoils g legs (u.writeOrder g legs) = .ok v := by rw [takeCoils, hnumber, hv]
  refine ⟨postPowers g s v, o, chosen, s.fits g chosen, ?_, ?_, hlegs, fun c => ?_⟩
  · simp only [buildOrder, readForBuild_of_sound hs, Flow.ok_andThen]
    rw [hlevels, Flow.ok_andThen, hu, Flow.ok_andThen, htake, Flow.ok_andThen]
  · simpa only [State.desk, hpd, hvd] using ho
  · have hcoil : u.coil c = s.coil c := by simp only [State.coil, huc]
    have hpost : (postPowers g s v).coil c = v.coil c := by simp only [State.coil, hpc]
    rw [hpost, hvc c, coil_writeOrder, hcoil, hlegs]
    simp only [List.mem_flatMap]

/-! ## The coils of a leg -/

/-- What R125 asks of the coils of a leg set. -/
theorem of_mem_legSet {s : State} {g : Gen} {n : Slot} {c : CoilNo} (h : c ∈ s.legSet g n) :
    (s.coil c).state = .claimed (s.panId n) ∧ s.driverGen c = g ∧ (s.coil c).hot = false ∧ (s.coil c).fault = false ∧
      s.excluded c = false := by
  simpa [State.legSet, State.unfit, and_assoc] using (List.mem_filter.mp h).2

/-- A leg's coils are the leg set of a pan (R133). -/
theorem coils_of_legFor {s : State} {g : Gen} {chosen : List Slot} {fits : List Fit} {n : Slot} {l : Leg}
    (h : s.legFor g chosen fits n = some l) : l.coils = s.legSet g n := by
  unfold State.legFor at h
  simp only at h
  split at h
  · cases h
  · cases h
    rfl

theorem coils_of_mem_legsFor {s : State} {g : Gen} {chosen : List Slot} {fits : List Fit} {l : Leg}
    (h : l ∈ s.legsFor g chosen fits) : ∃ n, l.coils = s.legSet g n := by
  have hl : l ∈ chosen.filterMap (s.legFor g chosen fits) := by
    simp only [State.legsFor, List.mem_append, List.mem_filter] at h
    exact h.elim And.left And.left
  obtain ⟨n, _, hn⟩ := List.mem_filterMap.mp hl
  exact ⟨n, coils_of_legFor hn⟩

/-- A coil of columns 0 and 7 is driven by its home generator in either position (R2). -/
theorem driverGen_edge (s : State) {c : CoilNo} (h : column c = 0 ∨ column c = 7) : s.driverGen c = homeGen c := by
  unfold State.driverGen driverAt
  split
  · rfl
  · simp [altGen, h]

/-! ## The statement -/

/-- Settles O46: the coils taken are those of the new order's legs, and each of these is in a leg set. -/
theorem buildTakesItsCoils : Obligations.BuildTakesItsCoils := by
  unfold Obligations.BuildTakesItsCoils
  intro s g hs
  obtain ⟨t, o, chosen, fits, hbuild, horder, hlegs, hcoil⟩ := buildOrder_of_sound hs g
  refine ⟨t, o, hbuild, horder, fun c hc => ?_, fun c hc => ?_⟩
  · obtain ⟨l, hl, hcl⟩ := hc
    obtain ⟨n, hn⟩ := coils_of_mem_legsFor (hlegs ▸ hl)
    obtain ⟨hstate, hdriver, hhot, hfault, hexcluded⟩ := of_mem_legSet (hn ▸ hcl)
    refine ⟨s.panId n, hstate, hdriver, hhot, hfault, hexcluded, ?_, fun hedge => ?_⟩
    · rw [hcoil c, if_pos ⟨l, hl, hcl⟩, taken_claimed hstate]
    · rw [← driverGen_edge s hedge, hdriver]
  · rw [hcoil c, if_neg fun ⟨l, hl, hcl⟩ => hc l hl hcl]

end Sys2Proof.Machine

/-! PROOFS. The cell a centre lies in (R35) and the PRESET window that holds it (R104): four quarter-pitches to a cell, so
the nearest cell is the position's quotient by 4 with a half rounded up; and a search over the window numbers in order
answers the lowest one that passes. -/

namespace Sys2Proof.Machine

/-! ## The nearest cell on an axis -/

/-- The quarter-pitches between a position and the centre of a cell on one axis. -/
def cellDistance (p y : Nat) : Nat := max (4 * y) p - min (4 * y) p

/-- The centre of the cell chosen is at most 2 quarter-pitches above the position, and less than 2 below it. -/
theorem nearestCell_bounds (p : Nat) : 4 * ((p + 2) / 4) ≤ p + 2 ∧ p + 2 < 4 * ((p + 2) / 4) + 4 := by omega

theorem cellDistance_nearestCell_le_two (p : Nat) : cellDistance p ((p + 2) / 4) ≤ 2 := by
  have hbounds := nearestCell_bounds p
  unfold cellDistance
  omega

/-- A lower cell is 2 quarter-pitches away or more, so none is nearer. -/
theorem two_le_cellDistance_of_lt {p y : Nat} (h : y < (p + 2) / 4) : 2 ≤ cellDistance p y := by
  have hbounds := nearestCell_bounds p
  unfold cellDistance
  omega

/-- A higher cell is strictly farther: a position midway below it would have taken it. -/
theorem cellDistance_nearestCell_lt {p y : Nat} (h : (p + 2) / 4 < y) :
    cellDistance p ((p + 2) / 4) < cellDistance p y := by
  have hbounds := nearestCell_bounds p
  unfold cellDistance
  omega

/-- No cell is nearer than the one chosen, and the cells as near are not higher (R35). -/
theorem nearestCell_spec (p y : Nat) :
    cellDistance p ((p + 2) / 4) ≤ cellDistance p y ∧
      (cellDistance p ((p + 2) / 4) = cellDistance p y → y ≤ (p + 2) / 4) := by
  rcases lt_trichotomy y ((p + 2) / 4) with hlower | rfl | hhigher
  · exact ⟨(cellDistance_nearestCell_le_two p).trans (two_le_cellDistance_of_lt hlower), fun _ => hlower.le⟩
  · exact ⟨le_rfl, fun _ => le_rfl⟩
  · have hfarther := cellDistance_nearestCell_lt hhigher
    exact ⟨hfarther.le, fun heq => absurd heq hfarther.ne⟩

/-! ## The window that holds a centre -/

theorem Window.contains_iff (w : Window) (col row : Nat) :
    w.contains col row = true ↔ w.colBase ≤ col ∧ col ≤ w.colLimit ∧ w.rowBase ≤ row ∧ row ≤ w.rowLimit :=
  decide_eq_true_iff

/-- A search over the window numbers in order answers the lowest one that passes. -/
theorem find?_allWindows_eq_some_iff {q : WindowNo → Bool} {w : WindowNo} :
    allWindows.find? q = some w ↔ q w = true ∧ ∀ v, v < w → ¬ q v = true := by
  rw [allWindows, ← Fin.find?_eq_find?_finRange, Fin.find?_eq_some_iff]
  simp only [Bool.not_eq_true]

theorem presetAt_eq_some_iff (s : State) (k : Centre) (w : WindowNo) :
    let holds : WindowNo → Prop := fun v =>
      (s.window v).mode = .preset ∧ (s.window v).contains ((k.col + 2) / 4) ((k.row + 2) / 4) = true
    s.presetAt k = some w ↔ holds w ∧ ∀ v, v < w → ¬ holds v := by
  unfold State.presetAt
  simp only [find?_allWindows_eq_some_iff, Bool.and_eq_true, decide_eq_true_iff]

/-! ## The statement -/

/-- Settles O55: the nearest cell, the higher when midway, and the lowest PRESET window that contains it. -/
theorem centreCell : Obligations.CentreCell := by
  unfold Obligations.CentreCell
  refine ⟨nearestCell_spec, fun s k w => ?_⟩
  simpa only [Window.contains_iff] using presetAt_eq_some_iff s k w

end Sys2Proof.Machine

/-! PROOFS. What a byte and the end of a reply do at a port that is IN HAND or IDLE (R182): the branch of each receiver
state is said once, and an IDLE port takes exactly the error-free SYNC. -/

namespace Sys2Proof.Machine

/-! ## The two link events -/

theorem exec_linkByteReceived (l : Link) (w : LineByte) (s : State) :
    exec (.linkByteReceived l w) s = .next (s.receiveByte l (receivedByte w)) := rfl

theorem exec_replySent_inHand {s : State} {l : Link} {m : Option Message} {causes : Causes} {r : Reply}
    (hx : (s.port l).rx = .inHand m causes r) :
    exec (.replySent l) s = .next (s.setPort l { s.port l with rx := .idle }) := by
  change execReplySent l s = _
  rw [execReplySent, hx]

/-! ## A byte at a port that is not RECEIVING -/

theorem isSync_iff (b : RxByte) : isSync b = true ↔ b = ⟨0xC3, false, false⟩ := by
  obtain ⟨data, parityErr, framingErr⟩ := b
  simp [isSync, and_assoc]

theorem receiveByte_inHand {s : State} {l : Link} {m : Option Message} {causes : Causes} {r : Reply}
    (hr : s.rstLow = false) (hx : (s.port l).rx = .inHand m causes r) (b : RxByte) :
    s.receiveByte l b = s.setPort l { s.port l with overrun := true } := by
  simp [State.receiveByte, hr, hx]

theorem receiveByte_idle {s : State} {l : Link} (hr : s.rstLow = false) (hx : (s.port l).rx = .idle) (b : RxByte) :
    s.receiveByte l b = if isSync b = true then s.keepReceiving l [] Causes.none else s := by
  simp [State.receiveByte, hr, hx]

/-! ## The statement -/

/-- Settles O12: a byte at a port IN HAND, the end of its reply, and the two kinds of byte an IDLE port meets. -/
theorem portInHandAndIdle : Obligations.PortInHandAndIdle := by
  unfold Obligations.PortInHandAndIdle
  intro s l w hr
  rw [exec_linkByteReceived]
  refine ⟨fun m causes r hx => ⟨?_, exec_replySent_inHand hx⟩, fun hx => ⟨fun hsync => ?_, fun hnoise => ?_⟩⟩
  · simp only [receiveByte_inHand hr hx, hx]
  · rw [receiveByte_idle hr hx, if_pos ((isSync_iff _).mpr hsync), State.keepReceiving]
  · rw [receiveByte_idle hr hx, if_neg fun h => hnoise ((isSync_iff _).mp h)]

end Sys2Proof.Machine

/-! PROOFS. The table of CONFIGURE (R188): the code of each parameter, read off the ranges of codes the decoding tests in
turn, the range of each value, and the defaults among the power-on values (R176). -/

namespace Sys2Proof.Machine

/-! ## Codes -/

theorem toNat_byteOf {n : Nat} (h : n < 256) : (byteOf n).toNat = n :=
  (BitVec.toNat_ofNat n 8).trans (Nat.mod_eq_of_lt h)

theorem paramFrom_level {b : Byte} {n : Fin 13} (h : b.toNat = n.val + 1) : paramFrom b = some (.level n) := by
  have hn := n.isLt
  rw [paramFrom, dif_pos (by omega)]
  simp [h]

theorem paramFrom_phase {b : Byte} {g : Gen} (h : b.toNat = 16 + g.val) : paramFrom b = some (.phase g) := by
  have hg := g.isLt
  rw [paramFrom, dif_neg (by omega), dif_pos (by omega)]
  simp [h]

/-- The codes that lie between the rows of the table, and those above the last row. -/
theorem paramFrom_eq_none {b : Byte}
    (h : b.toNat = 0 ∨ (14 ≤ b.toNat ∧ b.toNat ≤ 15) ∨ (20 ≤ b.toNat ∧ b.toNat ≤ 31) ∨ 40 ≤ b.toNat) :
    paramFrom b = none := by
  rw [paramFrom, dif_neg (by omega), dif_neg (by omega)]
  split
  case h_9 => rfl
  all_goals omega

/-! ## Ranges -/

/-- A bound by the entry below, where there is one. -/
theorem admits_below_iff (t : LevelTable) (n : Fin 13) (v : Nat) :
    (if h : 0 < n.val then decide (t.entry ⟨n.val - 1, by omega⟩ ≤ v) else true) = true ↔
      ∀ m : Fin 13, m.val + 1 = n.val → t.entry m ≤ v := by
  split
  next h =>
    rw [decide_eq_true_iff]
    refine ⟨fun hv m hm => ?_, fun hv => hv _ (Nat.sub_add_cancel h)⟩
    rwa [show m = ⟨n.val - 1, by omega⟩ from Fin.ext (by simp only; omega)]
  next h => exact iff_of_true rfl fun m hm => by omega

/-- A bound by the entry above, where there is one. -/
theorem admits_above_iff (t : LevelTable) (n : Fin 13) (v : Nat) :
    (if h : n.val < 12 then decide (v ≤ t.entry ⟨n.val + 1, by omega⟩) else true) = true ↔
      ∀ m : Fin 13, n.val + 1 = m.val → v ≤ t.entry m := by
  split
  next h =>
    rw [decide_eq_true_iff]
    refine ⟨fun hv m hm => ?_, fun hv => hv _ rfl⟩
    rwa [show m = ⟨n.val + 1, by omega⟩ from Fin.ext hm.symm]
  next h => exact iff_of_true rfl fun m hm => by omega

theorem LevelTable.admits_iff (t : LevelTable) (n : Fin 13) (v : Nat) :
    t.admits n v = true ↔ (10 ≤ v ∧ v ≤ 3600 ∧ v % 10 = 0) ∧
      (∀ m : Fin 13, m.val + 1 = n.val → t.entry m ≤ v) ∧ (∀ m : Fin 13, n.val + 1 = m.val → v ≤ t.entry m) := by
  rw [LevelTable.admits, Bool.and_eq_true, Bool.and_eq_true, admits_below_iff, admits_above_iff, decide_eq_true_iff,
    and_assoc]

/-! ## Power-on values -/

section
variable (straps : BitVec 2) (q : List Instr) (k : Nat)

@[simp] theorem coil_powerOn (c : CoilNo) : (State.powerOn straps q k).coil c = Coil.initial := by
  simp [State.coil, State.powerOn]

@[simp] theorem pan_powerOn (n : Slot) : (State.powerOn straps q k).pan n = Pan.freed 0 := by
  simp [State.pan, State.powerOn]

@[simp] theorem partSecond_powerOn (n : Slot) : (State.powerOn straps q k).partSecond n = 0 := by
  simp [State.partSecond, State.powerOn]

@[simp] theorem window_powerOn (w : WindowNo) : (State.powerOn straps q k).window w = Window.initial := by
  simp [State.window, State.powerOn]

@[simp] theorem account_powerOn (p : Phase) : (State.powerOn straps q k).account p = Account.initial := by
  simp [State.account, State.powerOn]

@[simp] theorem desk_powerOn (g : Gen) : (State.powerOn straps q k).desk g = Desk.initial := by
  simp [State.desk, State.powerOn]

@[simp] theorem alloc_powerOn (g : Gen) : (State.powerOn straps q k).alloc g = Alloc.initial := by
  simp [State.alloc, State.powerOn]

@[simp] theorem port_powerOn (l : Link) : (State.powerOn straps q k).port l = Port.initial := by
  simp [State.port, State.powerOn]

/-- Power-on reset leaves every block at its power-on values (R176), whatever the straps and the commands waiting. -/
theorem atPowerOn_powerOn : (State.powerOn straps q k).AtPowerOn where
  now := rfl
  coils := coil_powerOn straps q k
  pans n := ⟨pan_powerOn straps q k n, partSecond_powerOn straps q k n⟩
  lists := ⟨rfl, rfl⟩
  windows := window_powerOn straps q k
  levels := rfl
  times := ⟨rfl, rfl, rfl, rfl, rfl, rfl⟩
  counts := ⟨rfl, rfl⟩
  phases := ⟨rfl, rfl, rfl, rfl⟩
  accounts := account_powerOn straps q k
  desks g := by simp [Desk.initial]
  allocs := alloc_powerOn straps q k
  permit := rfl
  safe := rfl
  marks := rfl
  events := ⟨rfl, rfl⟩
  ports := port_powerOn straps q k

end

/-! ## The statement -/

/-- Settles O22: the codes row by row, the codes of no row, the ranges, and the defaults. -/
theorem parameterTable : Obligations.ParameterTable := by
  unfold Obligations.ParameterTable
  refine ⟨fun n => paramFrom_level ?_, fun g => paramFrom_phase ?_, rfl, rfl, rfl, rfl, rfl, rfl, rfl, rfl,
    fun b hb => paramFrom_eq_none ?_, fun s v => ⟨fun n => s.levels.admits_iff n v, fun _ => decide_eq_true_iff, ?_⟩,
    atPowerOn_powerOn⟩
  · rw [toNat_byteOf (by omega)]
  · rw [toNat_byteOf (by omega)]
  · simpa [BitVec.le_def, ← BitVec.toNat_inj] using hb
  · simp only [State.paramFits, decide_eq_true_iff, iff_self, and_self]

end Sys2Proof.Machine

/-! PROOFS. A request answered on its own link: the reply its rule answers, begun in the state its rule leaves (R184, R185). -/

namespace Sys2Proof.Machine

section
variable {k : ReqKind} {l : Link} {body : List Byte} {s : State}

/-- What a request's own rule answers is what its sender is answered. -/
theorem exec_answered {u : State} {a : Answer} (h : s.Listens l) (hb : bodyFits body = true)
    (ha : kindAllowed k l = true) (he : bodyless k = true → body = []) (hs : serve k l body s = (u, a)) :
    ∃ t, exec (requestCommand k l body) s = .next t ∧ Answered l a.kind a.fields u t := by
  refine ⟨_, exec_served h hb ha he, ?_⟩
  rw [hs]
  exact answered_reply u l _ _ a

/-- A request that its own rule refuses is refused with the rule's reason. -/
theorem refuses_of_serve {r : Reason} (h : s.Listens l) (hb : bodyFits body = true)
    (ha : kindAllowed k l = true) (he : bodyless k = true → body = []) (hs : serve k l body s = (s, .refused r)) :
    Refuses (requestCommand k l body) l r.code s :=
  exec_answered h hb ha he hs

end

end Sys2Proof.Machine

/-! PROOFS. The three ends of a posted event (R194): when the queue's test for a waiting PAN MOVED passes, and what is
left of the state in each case. -/

namespace Sys2Proof.Machine

/-! ## When an event is absorbed -/

theorem movedWaiting_iff (n : Slot) (q : List Event) :
    movedWaiting n q = true ↔ ∃ x ∈ q, x.kind = .panMoved ∧ ∃ p, x.pan = some p ∧ p.slot = n := by
  simp [movedWaiting]

theorem coalesced_iff (e : Event) (q : List Event) :
    coalesced e q = true ↔ e.kind = .panMoved ∧ ∃ p, e.pan = some p ∧
      ∃ x ∈ q, x.kind = .panMoved ∧ ∃ r, x.pan = some r ∧ r.slot = p.slot := by
  rw [coalesced, Bool.and_eq_true, decide_eq_true_iff]
  cases e.pan with
  | none => simp
  | some p => simp [movedWaiting_iff]

/-! ## What posting leaves -/

section
variable {s : State} {e : Event}

theorem postEvent_of_coalesced (h : coalesced e s.events = true) : s.postEvent e = s := if_pos h

theorem postEvent_of_room (h : ¬ coalesced e s.events = true) (hroom : s.events.length < Config.queueRoom) :
    s.postEvent e = { s with events := s.events ++ [e] } := by
  rw [State.postEvent, if_neg h, if_pos hroom]

theorem postEvent_of_full (h : ¬ coalesced e s.events = true) (hfull : Config.queueRoom ≤ s.events.length) :
    s.postEvent e = { s with eventsLost := true } := by
  rw [State.postEvent, if_neg h, if_neg (Nat.not_lt.mpr hfull)]

end

/-! ## The statement -/

/-- Settles O52: the test of the queue is the statement's, and each of its outcomes is one case. -/
theorem eventPosting : Obligations.EventPosting := by
  unfold Obligations.EventPosting
  intro s e
  simp only [← coalesced_iff]
  exact ⟨postEvent_of_coalesced, postEvent_of_room, postEvent_of_full, fun _ => rfl⟩

end Sys2Proof.Machine

/-! PROOFS. The fields of STATUS and READ LOAD (R118, R199): the lists the model runs through, of the generators and the
phases, are written out, and a flag or an absent shed becomes its bytes. -/

namespace Sys2Proof.Machine

/-! ## Fields -/

theorem byteOf_bitOf_zero (b : Bool) : byteOf (bitOf b 0) = if b then 1 else 0 := by cases b <;> rfl

theorem allGens_eq : allGens = [0, 1, 2, 3] := by decide

/-- Target, committed target and load of an account (R199). -/
def Account.figures (a : Account) : List Byte := wordOf a.target ++ wordOf a.committed ++ wordOf a.load

/-- The shed of an account, five bytes of 0 when none is pending (R118). -/
def shedFields : Option ShedTimes → List Byte
  | some x => [1] ++ wordOf x.deadline ++ wordOf x.remaining
  | none => [0, 0, 0, 0, 0]

theorem shedFields_eq (x : Option ShedTimes) :
    shedFields x = byteOf (bitOf x.isSome 0) ::
      (wordOf ((x.map (·.deadline)).getD 0) ++ wordOf ((x.map (·.remaining)).getD 0)) := by
  cases x <;> rfl

/-- The phase and the charge of a generator (R118). -/
def State.share (s : State) (g : Gen) : List Byte := phaseCode (s.genPhase g) :: wordOf (s.charge g)

/-! ## The rules of the two requests -/

theorem serve_status (l : Link) (body : List Byte) (s : State) :
    serve .status l body s = (s, .done ([if s.safe then 1 else 0, s.permit.code] ++ wordOf s.permit.remaining ++
      [(s.desk 0).state.code, (s.desk 1).state.code, (s.desk 2).state.code, (s.desk 3).state.code] ++
      (s.account .l1).figures ++ (s.account .l2).figures)) := by
  simp [serve, serveStatus, byteOf_bitOf_zero, allGens_eq, Account.figures]

theorem serve_readLoad_of_safe {s : State} (h : s.safe = true) (l : Link) (body : List Byte) :
    serve .readLoad l body s = (s, .refused .safe) := if_pos h

theorem serve_readLoad {s : State} (h : s.safe = false) (l : Link) (body : List Byte) :
    serve .readLoad l body s = (s, .done (
      ((s.account .l1).figures ++ shedFields (s.account .l1).shed) ++
      ((s.account .l2).figures ++ shedFields (s.account .l2).shed) ++
      s.share 0 ++ s.share 1 ++ s.share 2 ++ s.share 3)) := by
  simp [serve, serveReadLoad, h, allGens_eq, shedFields_eq, Account.figures, State.share]

/-! ## The statement -/

/-- Settles O18: STATUS is served on every link, READ LOAD on SL and outside SAFE, each with the fields of its rule. -/
theorem statusAndLoadReport : Obligations.StatusAndLoadReport := by
  unfold Obligations.StatusAndLoadReport
  refine ⟨fun s l hl => ⟨?_, rfl⟩, fun s hl => ⟨fun hsafe => ?_, fun hsafe => ?_⟩⟩
  · exact exec_answered (k := .status) hl rfl rfl (fun _ => rfl) (serve_status l [] s)
  · exact refuses_of_serve (k := .readLoad) hl rfl rfl (fun _ => rfl) (serve_readLoad_of_safe hsafe .sl [])
  · exact exec_answered (k := .readLoad) hl rfl rfl (fun _ => rfl) (serve_readLoad hsafe .sl [])

end Sys2Proof.Machine

/-! PROOFS. READ EVENTS (R195) and the layout of an event (R192): each of the seven bytes with the value that stands for an
absent field, the slot and tag packed into one byte, and the two ends of the request, by its body. -/

namespace Sys2Proof.Machine

/-! ## The slot and tag byte -/

theorem toNat_panCode_true (n : Slot) (tag : Tag) : (panCode true n tag.val).toNat = tag.val + 16 * n.val + 128 := by
  have hn := n.isLt
  have ht := tag.isLt
  exact toNat_byteOf (by rw [bitOf, if_pos rfl]; omega)

theorem EventPan.code_eq (p : EventPan) : p.code = panCode true p.slot (p.tag.getD 0).val := by
  obtain ⟨n, _ | tag⟩ := p <;> rfl

theorem EventPan.toNat_code (p : EventPan) : p.code.toNat = (p.tag.map (·.val)).getD 0 + 16 * p.slot.val + 128 := by
  rw [p.code_eq, toNat_panCode_true]
  cases p.tag <;> rfl

theorem EventPan.tag_lt (p : EventPan) : (p.tag.map (·.val)).getD 0 < 16 := by
  cases p.tag with
  | none => decide
  | some tag => exact tag.isLt

/-- Tag, slot and the bit for a pan can be read back from the byte (R192). -/
theorem EventPan.code_fields (p : EventPan) :
    p.code.toNat % 16 = (p.tag.map (·.val)).getD 0 ∧ p.code.toNat / 16 % 8 = p.slot.val ∧ p.code.getLsbD 7 = true := by
  have htag := p.tag_lt
  have hslot := p.slot.isLt
  have hcode := p.toNat_code
  refine ⟨by omega, by omega, ?_⟩
  rw [BitVec.getLsbD, Nat.testBit_eq_decide_div_mod_eq, decide_eq_true_iff]
  omega

/-! ## The seven bytes -/

/-- The seven bytes, each absent field but the pan as 0xFF (R192). -/
theorem Event.bytes_eq (e : Event) :
    e.bytes = [e.kind.code, byteOf e.stamp, byteOf (e.stamp / 256), (e.pan.map EventPan.code).getD 0,
      (e.gen.map fun g => byteOf g.val).getD 0xFF, (e.coil.map fun c => byteOf c.val).getD 0xFF,
      (e.cause.map EventCause.code).getD 0xFF] := by
  simp only [Event.bytes, wordOf, List.cons_append, List.nil_append, List.cons.injEq, true_and, and_true]
  refine ⟨?_, ?_, ?_, ?_⟩
  · cases e.pan <;> rfl
  · cases e.gen <;> rfl
  · cases e.coil <;> rfl
  · cases e.cause <;> rfl

theorem toNat_code_window (w : WindowNo) : (EventCause.window w).code.toNat = 0x30 + w.val := by
  have hw := w.isLt
  rw [EventCause.code, BitVec.toNat_add, toNat_byteOf (by omega)]
  exact Nat.mod_eq_of_lt (by simp; omega)

/-! ## The request -/

theorem serve_readEvents_of_count {s : State} {count : Byte} (h : 1 ≤ count.toNat ∧ count.toNat ≤ 8) (l : Link) :
    serve .readEvents l [count] s =
      ({ s with events := s.events.drop count.toNat, eventsLost := false },
        .done ([if s.eventsLost then 1 else 0, byteOf (s.events.take count.toNat).length] ++
          (s.events.take count.toNat).flatMap Event.bytes)) := by
  rw [← byteOf_bitOf_zero]
  exact if_pos h

theorem serve_readEvents_of_not_count {body : List Byte}
    (h : ∀ count : Byte, body = [count] → count.toNat = 0 ∨ 8 < count.toNat) (l : Link) (s : State) :
    serve .readEvents l body s = (s, .refused .outOfRange) := by
  match body with
  | [] => rfl
  | [count] => exact if_neg (by have := h count rfl; omega)
  | _ :: _ :: _ => rfl

/-! ## The statement -/

/-- Settles O19: the bytes of an event and the codes in them, then READ EVENTS with a count of 1 to 8 and with any other
body. -/
theorem readEventsDrains : Obligations.ReadEventsDrains := by
  unfold Obligations.ReadEventsDrains
  refine ⟨fun e => ⟨(e.pan.map EventPan.code).getD 0, e.bytes_eq, fun h => ?_, fun p h => ?_⟩,
    ⟨fun k => ?_, rfl⟩, rfl, rfl, rfl, rfl, toNat_code_window,
    fun s body hl hb => ⟨fun count hbody hlow hhigh => ?_, fun hbody => ?_⟩⟩
  · rw [h]
    rfl
  · rw [h]
    exact p.code_fields
  · cases k <;> decide
  · subst hbody
    exact exec_answered (k := .readEvents) hl hb rfl nofun (serve_readEvents_of_count ⟨hlow, hhigh⟩ .pl)
  · exact refuses_of_serve (k := .readEvents) hl hb rfl nofun (serve_readEvents_of_not_count hbody .pl s)

end Sys2Proof.Machine

/-! PROOFS. What any command keeps: a step is a reset, a change of ports, a request served, or the running of the time base
and an expiry's work; and each of these is a run of record updates or one of a few changes outside them. -/

namespace Sys2Proof.Machine

/-! ## Work that keeps a predicate -/

/-- The work leaves the predicate true, whether or not it is abandoned. -/
def Keeps (P : State → Prop) (k : Op) : Prop := ∀ s, P s → P (k s).state

theorem Keeps.andThen {P : State → Prop} {f : Flow} {k : Op} (hf : P f.state) (hk : Keeps P k) : P (f.andThen k).state := by
  cases f with
  | ok s => exact hk s hf
  | safe s => exact hf

theorem Keeps.elapse {P : State → Prop} (h : Keeps P millisecond) : ∀ (k : Nat) (s : State), P s → P (elapse k s)
  | 0, _, hs => hs
  | k + 1, s, hs => Keeps.elapse h k _ (h s hs)

theorem Keeps.runTimer {P : State → Prop} (hm : Keeps P millisecond) (n : Slot) (hd : Keeps P (decrementTimer n)) :
    ∀ (k : Nat) (s : State), P s → P (runTimer n k s)
  | 0, _, hs => hs
  | k + 1, s, hs => by
    unfold Machine.runTimer
    split
    · exact hs
    · exact Keeps.runTimer hm n hd k _ (hd _ (hm.elapse _ s hs))

/-! ## The expiries -/

/-- The work of an expiry command that waits for a count of a record. -/
def expiryWork : Instr → Option Op
  | .switchEnd c => some (endSwitch c)
  | .lostTimeExpiry n => some (panGone n)
  | .partSecondElapsed n => some (secondElapsed n)
  | .boostEnded n => some (endBoost n)
  | .permitExpired => some permitExpires
  | .shedDeadlineExpiry p => some (deadlineExpires p)
  | .leaseExpiry g => some (leaseExpires g)
  | .yieldTimeout g => some (yieldExpires g)
  | .collectionExpiry g => some (collectionExpires g)
  | .holdEnd g => some (holdEnds g)
  | _ => none

/-- The gap timer is the one count that is of no record. -/
theorem expiryWork_of_countOf {c : Instr} {f : State → Option Nat} (hf : countOf c = some f) :
    (∃ work, expiryWork c = some work) ∨ ∃ l, c = .gapTimeout l := by
  cases c <;> first
    | exact .inl ⟨_, rfl⟩
    | exact .inr ⟨_, rfl⟩
    | simp [countOf] at hf

theorem exec_expiry {c : Instr} {f : State → Option Nat} {work : Op} (hf : countOf c = some f)
    (hw : expiryWork c = some work) (s : State) : exec c s = expire f work s := by
  cases c <;> cases hf <;> cases hw <;> rfl

/-- An expiry whose count does not run does nothing; one whose count runs is taken where the count has run out. -/
theorem expire_keeps {P Q : State → Prop} {f : State → Option Nat} {work : Op} (hdone : ∀ s, P s → Q s)
    (hm : Keeps P millisecond) (hw : ∀ s, f s = some 0 → P s → Q (work s).state) {s t : State} (hs : P s)
    (h : expire f work s = .next t) : Q t := by
  unfold expire at h
  split at h
  · cases h; exact hdone s hs
  · split at h
    · cases h; exact hdone s hs
    · next left _ =>
      have he := hm.elapse left s hs
      simp only [Host.Outcome.next.injEq] at h
      split at h <;> subst h
      · next h0 => exact hw _ h0 he
      · exact hdone _ he

/-! ## The ports -/

/-- A reply and every other change of a port are changes of the ports. -/
theorem reply_eq_ports (s : State) (l : Link) (m : Option Message) (causes : Causes) (a : Answer) :
    s.reply l m causes a = { s with ports := (s.reply l m causes a).ports } := rfl

theorem badMessage_eq_ports (s : State) (l : Link) (causes : Causes) :
    s.badMessage l causes = { s with ports := (s.badMessage l causes).ports } := by
  unfold State.badMessage
  split
  · rfl
  · split <;> rfl

theorem gapEnds_eq_ports (s : State) (l : Link) : s.gapEnds l = { s with ports := (s.gapEnds l).ports } := by
  unfold State.gapEnds
  split <;> rfl

/-! ## The rules of a predicate -/

/-- What a predicate has to meet to be kept by every command: P before the command, Q after it. -/
structure StepRules (P Q : State → Prop) : Prop where
  done : ∀ s, P s → Q s
  ports : ∀ s ps, P s → P { s with ports := ps }
  portsAfter : ∀ s ps, Q s → Q { s with ports := ps }
  reset : ∀ s straps low, P s → Q { State.powerOn straps s.pending s.freeCount with rstLow := low }
  millisecond : Keeps P millisecond
  decrement : ∀ n, Keeps P (decrementTimer n)
  serve : ∀ k l body s, P s → Q (serve k l body s).1
  expiry : ∀ c f work s, countOf c = some f → expiryWork c = some work → f s = some 0 → P s → Q (work s).state
  timer : ∀ n s, P s → Q (timerCompletes n s).state
  retest : ∀ g s, P s → Q (retestDesk g s).state

section
variable {P Q : State → Prop}

/-- A port IN HAND. -/
def State.Busy (s : State) (l : Link) : Prop := ∃ m causes r, (s.port l).rx = .inHand m causes r

theorem busy_reply (s : State) (l : Link) (m : Option Message) (causes : Causes) (a : Answer) :
    (s.reply l m causes a).Busy l :=
  ⟨m, causes, makeReply a.kind (s.linkFlags l :: a.fields) (s.markFires l m),
    by simp only [State.reply, State.port_setPort_self]⟩

theorem route_keeps (h : StepRules P Q) (l : Link) (m : Message) {s : State} (hs : P s) : Q (route l m s).1 := by
  unfold route
  split
  · exact h.done s hs
  · split
    · exact h.done s hs
    · split
      · exact h.done s hs
      · exact h.serve _ l m.body s hs

theorem takeMessage_keeps (h : StepRules P Q) (l : Link) (m : Message) {s : State} (hs : P s) : Q (s.takeMessage l m) := by
  rw [State.takeMessage, reply_eq_ports]
  exact h.portsAfter _ _ (route_keeps h l m hs)

/-- A byte either leaves the port with no message taken, or ends a message and leaves the port IN HAND. -/
theorem receiveByte_keeps (h : StepRules P Q) (l : Link) (b : RxByte) {s : State} (hs : P s) :
    P (s.receiveByte l b) ∨ (Q (s.receiveByte l b) ∧ (s.receiveByte l b).Busy l) := by
  unfold State.receiveByte
  split
  · exact .inl hs
  · split
    · split
      · exact .inl (h.ports _ _ hs)
      · exact .inl hs
    · unfold State.appendByte
      split
      · split
        · exact .inl (h.ports _ _ hs)
        · exact .inl (h.ports _ _ hs)
      · split
        · unfold State.endMessage
          simp only
          split
          · exact .inl (h.ports _ _ hs)
          · split
            · exact .inr ⟨takeMessage_keeps h l _ hs, busy_reply _ _ _ _ _⟩
            · exact .inl hs
        · exact .inl (h.ports _ _ hs)
    · exact .inl (h.ports _ _ hs)

/-- Bytes at a port IN HAND change nothing but its port, and leave it IN HAND. -/
theorem receiveByte_busy (h : StepRules P Q) (l : Link) (b : RxByte) {s : State} (hs : Q s) (hb : s.Busy l) :
    Q (s.receiveByte l b) ∧ (s.receiveByte l b).Busy l := by
  obtain ⟨m, causes, r, hx⟩ := hb
  unfold State.receiveByte
  split
  · exact ⟨hs, m, causes, r, hx⟩
  · rw [hx]
    exact ⟨h.portsAfter _ _ hs, m, causes, r, by simp only [State.port_setPort_self, hx]⟩

theorem receiveAll_keeps (h : StepRules P Q) (l : Link) : ∀ (bytes : List Byte) (s : State),
    P s ∨ (Q s ∧ s.Busy l) → Q (State.receiveAll l bytes s)
  | [], s, hs => hs.elim (h.done s) And.left
  | _ :: rest, _, hs => receiveAll_keeps h l rest _ (hs.elim (receiveByte_keeps h l _)
      fun hb => .inr (receiveByte_busy h l _ hb.1 hb.2))

theorem messageArrives_keeps (h : StepRules P Q) (l : Link) (kind : Byte) (body : List Byte) {s : State} (hs : P s) :
    Q (s.messageArrives l kind body) := by
  unfold State.messageArrives
  simp only
  split
  · exact h.done s hs
  · split
    · exact takeMessage_keeps h l _ hs
    · exact receiveAll_keeps h l _ s (.inl hs)

/-- Every command leads from P to Q. -/
theorem exec_keeps (h : StepRules P Q) {c : Instr} {s t : State} (hs : P s) (ht : exec c s = .next t) : Q t := by
  cases hf : countOf c with
  | some f =>
    cases hw : expiryWork c with
    | some work =>
      rw [exec_expiry hf hw] at ht
      exact expire_keeps h.done h.millisecond (fun s h0 hs => h.expiry c f work s hf hw h0 hs) hs ht
    | none =>
      obtain ⟨l, rfl⟩ := (expiryWork_of_countOf hf).resolve_left (by simp [hw])
      change execGapTimeout l s = _ at ht
      unfold execGapTimeout at ht
      split at ht
      · cases ht; exact h.done s hs
      · split at ht
        · cases ht; exact h.done s hs
        · cases ht
          rw [gapEnds_eq_ports]
          exact h.done _ (h.ports _ _ (h.millisecond.elapse _ s hs))
  | none =>
    cases c
    case powerOnReset straps => cases ht; exact h.reset s straps false hs
    case rstTakenLow => cases ht; exact h.reset s s.rate true hs
    case badFrame l causes => cases ht; rw [badMessage_eq_ports]; exact h.done _ (h.ports _ _ hs)
    case replySent l =>
      change execReplySent l s = _ at ht
      unfold execReplySent at ht
      split at ht <;> cases ht
      · exact h.done _ (h.ports _ _ hs)
      · exact h.done s hs
    case linkByteReceived l w =>
      cases ht
      exact (receiveByte_keeps h l _ hs).elim (h.done _) And.left
    case timerDone n =>
      change execTimerDone n s = _ at ht
      unfold execTimerDone at ht
      split at ht <;> cases ht
      · exact h.done s hs
      · exact h.timer n _ (h.millisecond.runTimer n (h.decrement n) _ s hs)
    case waitConditionCleared g =>
      change execWaitConditionCleared g s = _ at ht
      unfold execWaitConditionCleared at ht
      split at ht <;> cases ht
      · exact h.done s hs
      · exact h.retest g s hs
    all_goals first
      | (cases ht; exact messageArrives_keeps h _ _ _ hs)
      | simp [countOf] at hf

/-- Every step leads from P to Q, where P does not read the queue of commands. -/
theorem step_keeps (h : StepRules P Q) (hq : ∀ (s : State) q n, P s → P { s with pending := q, freeCount := n })
    {s t : State} (hs : P s) (ht : step s = .next t) : Q t := by
  unfold step at ht
  split at ht
  · unfold idle at ht
    split at ht
    · cases ht; exact h.done s hs
    · split at ht
      · cases ht; exact h.done _ (h.millisecond s hs)
      · exact exec_keeps h hs ht
      · exact exec_keeps h (hq s s.pending _ hs) ht
  · exact exec_keeps h (hq s _ s.freeCount hs) ht

end

end Sys2Proof.Machine

/-! PROOFS. Which path of updates each request and each expiry takes, and so what every step keeps: the commands waiting, the
bound of the Event Queue (R193, R196), the coils of columns 0 and 7 (R2), and the validity of every check code (R165). -/

namespace Sys2Proof.Machine

/-! ## Requests as runs -/

/-- The work is a run of updates of any record. -/
abbrev Serves (s : State) (f : Flow) : Prop := Run .service (fun _ => True) s f

/-- A run from where a run has ended. -/
theorem Run.follow {w : Scope} {D : Gen → Prop} {s t : State} {f : Flow} (h : Run w D s (.ok t)) (k : Run w D t f) :
    Run w D s f :=
  h.bind (k := fun _ => f) fun _ _ hu => Flow.ok.inj hu ▸ k

theorem serves_settle (before s : State) : Serves s (settle before s) :=
  (run_settle before s (holdsNone_all s) (waitsNone_all s)).toTracking.toService

theorem serves_reportAll (gs : List Gen) (s : State) : Serves s (reportAll gs s) := run_reportAll gs s (holdsNone_all s)

theorem serves_replanPass (s : State) : Serves s (replanPass s) := run_replanPass s (holdsNone_all s)

theorem serves_editPan (n : Slot) (f : Pan → Pan) (s : State) : Serves s (editPan n f s) := (run_trackPan n f s).toService

theorem path_priority (s : State) (ps : List Slot) : Path .service (fun _ => True) s { s with priority := ps } :=
  (Path.single (update_priority s ps)).toService

theorem path_partSecond (s : State) (n : Slot) (ms : Nat) : Path .service (fun _ => True) s (s.setPartSecond n ms) :=
  (Path.single (update_setPartSecond s n ms)).toService

theorem serves_setLevel (n : Slot) (level : Fin 14) (s : State) : Serves s (setLevel n level s) := by
  refine (serves_editPan n _ s).andThen fun t => Run.andThen ?_ (serves_settle s)
  split
  · exact .ok (path_priority t _)
  · split
    · exact serves_reportAll _ t
    · exact .here t

theorem serves_completeIfDue (n : Slot) (s : State) : Serves s (completeIfDue n s) :=
  (run_completeIfDue n s (holdsNone_all s)).toTracking.toService

theorem serves_setTimer (n : Slot) (value : Option Nat) (a h : Bool) (s : State) : Serves s (setTimer n value a h s) :=
  (run_rewritePan (w := .service) n _ s (fun h => by cases h)).andThen fun t =>
    .after (path_partSecond t n 0) ((serves_completeIfDue n _).andThen (serves_settle s))

theorem serves_holdFrom : ∀ (slots : List Slot) (gs : List Gen) (s : State), Serves s (holdFrom slots gs s)
  | [], gs, s => serves_reportAll gs s
  | n :: rest, _, s => (serves_editPan n _ s).andThen (serves_holdFrom rest _)

theorem serves_holdSlots (slots : List Slot) (s : State) : Serves s (holdSlots slots s) :=
  (serves_holdFrom _ [] s).andThen (serves_settle s)

theorem serves_resumeSlots (slots : List Slot) (s : State) : Serves s (resumeSlots slots s) :=
  (Run.forEach (fun n s => serves_editPan n _ s) _ s).andThen fun t => .after (path_priority t _) (serves_settle s _)

theorem serves_stopGen (g : Gen) (cause : StopCause) (s : State) : Serves s (stopGen g cause s) :=
  run_stopGen g cause s trivial (.inl rfl)

theorem serves_stopAll (s : State) : Serves s (stopAll s) :=
  (Run.forEach (fun n s => serves_editPan n _ s) _ s).andThen fun t =>
    (Run.forEach (fun g s => serves_stopGen g .stopAll s) _ t).andThen fun u =>
      (Run.doIf _ serves_replanPass u).andThen (serves_settle s)

theorem apply_fixed (e : SweepEntry) (r : Coil) (h : CoilFixed r) : CoilFixed (r.apply e) := h

theorem serves_applyEntry (g : Gen) (e : SweepEntry) (s : State) : Serves s (applyEntry g e s) := by
  refine (run_rewriteCoil e.coil _ s (fun h => absurd rfl h) (fun _ => apply_fixed e _)
    (fun h => by cases h <;> contradiction)).andThen fun t => ?_
  split
  · exact .update (.post t _)
  · exact .here t

theorem serves_applyEntries (g : Gen) : ∀ (es : List SweepEntry) (k : Nat) (gs : List Gen) (s : State),
    Serves s (applyEntries g es k gs s).flow
  | [], _, _, s => .here s
  | e :: rest, k, gs, s => by
    have hcheck := run_checkCoil (w := .service) (D := fun _ => True) e.coil s
    unfold applyEntries
    split
    · next t ht => rw [← ht]; exact hcheck
    · next t ht =>
      cases checkCoil_ok ht
      split
      · have happly := serves_applyEntry g e s
        simp only
        split
        · next v hv => rw [← hv]; exact happly
        · next u hu =>
          rw [hu] at happly
          exact happly.andThen (k := fun u => (applyEntries g rest k _ u).flow) fun u => serves_applyEntries g rest k _ u
      · exact serves_applyEntries g rest _ gs s

theorem serves_evaluate (s : State) : Serves s (evaluate s) := (run_evaluate s (holdsNone_all s)).toService

theorem serves_sweep (g : Gen) (es : List SweepEntry) (s : State) : Serves s (sweep g es s).1 :=
  (serves_applyEntries g es 0 [] s).andThen fun t => (serves_reportAll _ t).andThen fun u =>
    (serves_evaluate u).andThen (serves_settle s)

theorem serves_buildOrder (g : Gen) (s : State) : Serves s (buildOrder g s) := run_buildOrder g s trivial

theorem serves_deliver (g : Gen) (s : State) : Serves s (deliver g s) := run_deliver g s trivial (.inl rfl)

theorem serves_setDesk (g : Gen) (d : Desk) (s : State) (h : d.order = (s.desk g).order) :
    Path .service (fun _ => True) s (s.setDesk g d) :=
  .single (update_setDesk_service s g d trivial (.inr (by simp only [Desk.orderOk, h])))

theorem serves_confirm (g : Gen) (o : Order) (s : State) : Serves s (confirm g o s) :=
  (run_releaseOrder g false s).andThen fun t => .ok <|
    ((path_dropOrderPosting t g trivial).snoc (update_setAlloc _ g _ trivial)).trans (serves_setDesk g _ _ rfl)

theorem serves_mismatchStop (g : Gen) (s : State) : Serves s (mismatchStop g s) :=
  (serves_stopGen g _ s).andThen fun t => (serves_replanPass t).andThen (serves_settle s)

theorem path_starve (s : State) (g : Gen) : Path .service (fun _ => True) s (s.starve g).1 := by
  simp only [State.starve, State.postGen]
  exact (serves_setDesk g { s.desk g with desk := .empty, repeats := 0 } s rfl).snoc (.post _ _)

theorem delivered_fst (f : Flow) (g : Gen) : (f.delivered g).1 = f.state := by cases f <;> rfl

/-- Delivery ends where some run from its state ends. -/
theorem serves_delivery (g : Gen) (n : Byte) (s : State) : ∃ f, Serves s f ∧ (delivery g n s).1 = f.state := by
  have hwait : ∀ entry k, ∃ f, Serves s f ∧ (s.waitAt g entry k).1 = f.state := fun entry k =>
    ⟨_, .ok (serves_setDesk g { s.desk g with desk := .waiting entry, repeats := k } s rfl), rfl⟩
  unfold delivery
  split
  · exact ⟨_, serves_deliver g s, delivered_fst _ g⟩
  · split
    · exact hwait n 1
    · exact ⟨_, (serves_buildOrder g s).andThen (serves_deliver g), delivered_fst _ g⟩
  · split
    · split
      · exact ⟨.ok (s.starve g).1, .ok (path_starve s g), rfl⟩
      · exact hwait _ _
    · exact hwait n 1

theorem serves_fetch (g : Gen) (n : Byte) (s : State) : ∃ f, Serves s f ∧ (fetch g n s).1 = f.state := by
  have here : ∃ f, Serves s f ∧ s = f.state := ⟨.ok s, .here s, rfl⟩
  unfold fetch
  split
  · next o _ =>
    split
    · have hc := serves_confirm g o s
      split
      · next t ht =>
        obtain ⟨f, hf, e⟩ := serves_delivery g n t
        exact ⟨f, (ht ▸ hc).follow hf, e⟩
      · next v hv => exact ⟨_, hc, by rw [hv]; rfl⟩
    · have hm := serves_mismatchStop g s
      split
      · next t ht => exact ⟨_, hm, by rw [ht]; rfl⟩
      · next v hv => exact ⟨_, hm, by rw [hv]; rfl⟩
  · split
    · exact serves_delivery g n s
    · exact here

/-! ## Expiries as runs -/

theorem endSwitch_fixed (r : Coil) (h : CoilFixed r) : CoilFixed r.endSwitch := by
  obtain ⟨d, cov, hot, flt, st, ok⟩ := r
  cases st with
  | off m => exact ⟨h.1, rfl⟩
  | switching => exact h.2.elim
  | _ => exact h

theorem serves_endSwitch (c : CoilNo) (s : State) : Serves s (endSwitch c s) := by
  refine (run_serveCoil c _ s endSwitch_fixed).andThen fun t => Run.andThen ?_ (serves_settle s)
  split
  · exact run_relayTo c .home t (fun h => by cases h <;> contradiction)
  · exact run_followPlan c t

theorem serves_panGone (n : Slot) (s : State) : Serves s (panGone n s) :=
  (serves_editPan n _ s).andThen fun t =>
    .after (((path_priority t (t.priority.erase n)).trans (path_partSecond _ n 0)).snoc (.post _ _)) (serves_settle s _)

theorem serves_decrementTimer (n : Slot) (s : State) : Serves s (decrementTimer n s) :=
  (run_decrementTimer n s).toTracking.toService

theorem serves_secondElapsed (n : Slot) (s : State) : Serves s (secondElapsed n s) :=
  (serves_decrementTimer n s).andThen fun t => (serves_completeIfDue n t).andThen (serves_settle s)

theorem serves_timerCompletes (n : Slot) (s : State) : Serves s (timerCompletes n s) :=
  (serves_completeIfDue n s).andThen (serves_settle s)

theorem serves_endBoost (n : Slot) (s : State) : Serves s (endBoost n s) :=
  (run_endBoost n s (holdsNone_all s)).toTracking.toService

theorem serves_retestDesk (g : Gen) (s : State) : Serves s (retestDesk g s) := run_retestDesk g s (.inl trivial)

theorem serves_retestDesks (s : State) : Serves s (retestDesks s) := run_retestDesks s (waitsNone_all s)

/-- The work of the permit's expiry once the permit is EXPIRED and the event posted (R163). -/
def holdAll : Op := fun t =>
  (forEach (fun n => editPan n (fun p => { p with held := true }))
    (allSlots.filter fun n => decide ((t.pan n).state ≠ .free)) t).andThen fun t =>
      (reportAll t.charged t).andThen retestDesks

theorem permitExpires_eq (s : State) : permitExpires s = holdAll (({ s with permit := .expired } : State).post .permitExpired) :=
  rfl

theorem serves_holdAll (s : State) : Serves s (holdAll s) :=
  (Run.forEach (fun n s => serves_editPan n _ s) _ s).andThen fun t => (serves_reportAll _ t).andThen serves_retestDesks

theorem serves_deadlineExpires (p : Phase) (s : State) : Serves s (deadlineExpires p s) :=
  (Run.forEach (fun g s => by
    show Serves s (if _ then _ else _)
    split
    · exact serves_stopGen g .shed s
    · exact .here s) _ s).andThen fun t => (serves_replanPass t).andThen (serves_settle s)

theorem serves_leaseExpires (g : Gen) (s : State) : Serves s (leaseExpires g s) := by
  refine .ok (Path.trans ?_ (serves_setDesk g _ _ rfl))
  split
  · exact path_requestYield s g trivial
  · exact .refl s

theorem serves_yieldExpires (g : Gen) (s : State) : Serves s (yieldExpires g s) := by
  unfold yieldExpires
  split
  · exact (serves_stopGen g _ s).andThen fun t => (serves_replanPass t).andThen (serves_settle s)
  · exact .ok (serves_setDesk g _ s rfl)

theorem serves_collectionExpires (g : Gen) (s : State) : Serves s (collectionExpires g s) := by
  refine (run_checkOrder g s).andThen fun t => (run_releaseCoils g false t).andThen fun u => ?_
  refine .ok (Path.trans ?_ (serves_setDesk g _ _ rfl))
  split
  · exact path_dropOrderPosting u g trivial
  · exact .refl u

theorem serves_holdEnds (g : Gen) (s : State) : Serves s (holdEnds g s) := by
  have hend := serves_setDesk g { s.desk g with state := (s.desk g).holdEnd.state, hold := none } s rfl
  unfold holdEnds
  simp only
  split
  · split
    · exact .after hend ((serves_replanPass _).andThen (serves_settle s))
    · exact .ok hend
  · exact .ok (serves_setDesk g { s.desk g with hold := none } s rfl)

/-- Every expiry's work but the permit's is a run of updates. -/
theorem serves_expiry {c : Instr} {work : Op} (hw : expiryWork c = some work) (hc : c ≠ .permitExpired) (s : State) :
    Serves s (work s) := by
  cases c <;> cases hw
  case switchEnd c => exact serves_endSwitch c s
  case lostTimeExpiry n => exact serves_panGone n s
  case partSecondElapsed n => exact serves_secondElapsed n s
  case boostEnded n => exact serves_endBoost n s
  case permitExpired => exact absurd rfl hc
  case shedDeadlineExpiry p => exact serves_deadlineExpires p s
  case leaseExpiry g => exact serves_leaseExpires g s
  case yieldTimeout g => exact serves_yieldExpires g s
  case collectionExpiry g => exact serves_collectionExpires g s
  case holdEnd g => exact serves_holdEnds g s

/-- The pan records' counts of a millisecond are a run of updates, after the counts outside them. -/
theorem serves_millisecond (s : State) : Serves s.tickCounts (millisecond s) :=
  Run.forEach (fun n s => serves_editPan n _ s) _ _

/-! ## RESTART as runs -/

/-- RESTART's work on one generator ends where a run of updates ends. -/
theorem serves_restartGen (s : State) (g : Gen) : ∃ f, Serves s f ∧ restartGen s g = f.state := by
  unfold restartGen
  split
  · exact ⟨_, .here s, rfl⟩
  · exact ⟨_, .here s, rfl⟩
  · exact ⟨_, .ok ((serves_setDesk g { s.desk g with hold := some Config.stopHold, holdEnd := .absent } s rfl).snoc
      (.post _ (({ State.event _ .generatorStopped with gen := some g, cause := some (.stop .restart) } : Event)))), rfl⟩
  · exact ⟨_, serves_stopGen g .restart s, rfl⟩

/-! ## What runs keep, every step keeps -/

/-- What a predicate has to meet, where runs of updates keep it: the changes outside runs. -/
structure RunRules (P Q : State → Prop) : Prop where
  run : ∀ s f, Serves s f → P s → P f.state
  done : ∀ s, P s → Q s
  ports : ∀ s ps, P s → P { s with ports := ps }
  portsAfter : ∀ s ps, Q s → Q { s with ports := ps }
  reset : ∀ s straps low, P s → Q { State.powerOn straps s.pending s.freeCount with rstLow := low }
  tick : ∀ s, P s → P s.tickCounts
  permit : ∀ s x, P s → P { s with permit := x }
  window : ∀ s n w, P s → P (s.setWindow n w)
  account : ∀ s p a, P s → P (s.setAccount p a)
  drain : ∀ s n, P s → P { s with events := s.events.drop n, eventsLost := false }
  param : ∀ s v p, s.paramFits v p = true → P s → P (s.setParam v p)
  arm : ∀ s x, P s → Q (s.arm x)
  restart : ∀ s, P s → P (restart s)

section
variable {P Q : State → Prop}

theorem RunRules.keepsMillisecond (h : RunRules P Q) : Keeps P millisecond :=
  fun s hs => h.run _ _ (serves_millisecond s) (h.tick s hs)

theorem RunRules.keepsExpiry (h : RunRules P Q) {c : Instr} {work : Op} (hw : expiryWork c = some work) : Keeps P work := by
  intro s hs
  by_cases hc : c = .permitExpired
  · subst hc
    cases hw
    rw [permitExpires_eq]
    exact h.run _ _ (.after (.single (.post _ _)) (serves_holdAll _)) (h.permit s .expired hs)
  · exact h.run s _ (serves_expiry hw hc s) hs

theorem RunRules.keepsMoveTarget (h : RunRules P Q) (p : Phase) (target deadline : Nat) : Keeps P (moveTarget p target deadline) := by
  intro s hs
  unfold moveTarget
  split
  · exact hs
  · split
    · unfold State.settleCap
      simp only
      split
      · exact h.run _ (.ok _) (.update (.post _ _)) (h.account s p _ hs)
      · exact h.account s p _ hs
    · unfold startShed
      simp only
      split
      · split
        · exact h.run _ _ (serves_reportAll _ _) (h.account s p _ hs)
        · exact h.account s p _ hs
      · exact h.run _ _ (.after (.single (.post _ _)) (serves_reportAll _ _)) (h.account s p _ hs)

theorem RunRules.keepsSnapshot (h : RunRules P Q) {s : State} {f : Flow} (hf : Serves s f) (fields : State → List Byte) (hs : P s) :
    Q (f.snapshot fields).1 := by
  have := h.done _ (h.run s f hf hs)
  cases f <;> exact this

theorem serves_checkParam (p : Param) (s : State) : Serves s (checkParam p s) := by
  cases p <;> first | exact run_checkLevels s | exact .here s

theorem checkParam_ok {p : Param} {s t : State} (h : checkParam p s = .ok t) : t = s := by
  cases p <;> simp only [checkParam, checkLevels, Flow.ok.injEq] at h
  · split at h
    · exact (Flow.ok.inj h).symm
    · cases h
  all_goals exact h.symm

theorem RunRules.keepsConfigure (h : RunRules P Q) (body : List Byte) {s : State} (hs : P s) : Q (serveConfigure body s).1 := by
  have hcheck : ∀ p t, checkParam p s = .safe t → Q t := fun p t ht =>
    h.done _ (h.run s (.safe t) (ht ▸ serves_checkParam p s) hs)
  unfold serveConfigure
  repeat' split
  · exact h.done s hs
  · unfold readParam
    split
    · next ht => exact hcheck _ _ ht
    · next ht => rw [checkParam_ok ht]; exact h.done s hs
  · exact h.done s hs
  · unfold writeParam
    split
    · next ht => exact hcheck _ _ ht
    · next ht =>
      rw [checkParam_ok ht]
      split
      · exact h.done s hs
      · next hfits =>
        split
        · exact h.done s hs
        · exact h.done _ (h.param s _ _ (Bool.not_eq_false _ ▸ hfits) hs)
  · exact h.done s hs
  · exact h.done s hs

/-- A request leads from P to Q. -/
theorem RunRules.keepsServe (h : RunRules P Q) (k : ReqKind) (l : Link) (body : List Byte) (s : State) (hs : P s) :
    Q (serve k l body s).1 := by
  have here := h.done s hs
  have runs : ∀ f, Serves s f → Q f.state := fun f hf => h.done _ (h.run s f hf hs)
  cases k
  case status => exact here
  case setLevel =>
    simp only [serve, serveSetLevel, serveSlot]
    repeat' split
    all_goals first | exact here | exact runs _ (serves_setLevel _ _ s)
  case setTimer =>
    simp only [serve, serveSetTimer, serveSlot]
    repeat' split
    all_goals first | exact here | exact runs _ (serves_setTimer _ _ _ _ s)
  case hold =>
    simp only [serve, serveHold]
    repeat' split
    all_goals first | exact here | exact runs _ (serves_holdSlots _ s)
  case resume =>
    simp only [serve, serveResume]
    repeat' split
    all_goals first | exact here | exact runs _ (serves_resumeSlots _ s)
  case stopAll =>
    simp only [serve, serveStopAll]
    split
    · exact here
    · exact runs _ (serves_stopAll s)
  case setWindow =>
    simp only [serve, serveSetWindow]
    repeat' split
    all_goals first
      | exact here
      | exact h.done _ (h.run _ _ (serves_reportAll _ _) (h.window s _ _ hs))
  case permit =>
    simp only [serve, servePermit]
    repeat' split
    all_goals first
      | exact here
      | exact h.done _ (h.run _ _ (serves_settle _ _) (h.permit s _ hs))
  case enableGenerators =>
    simp only [serve, serveEnable]
    repeat' split
    all_goals first | exact here | exact runs _ (run_enableGens _ _ s)
  case checkTest =>
    simp only [serve, serveCheckTest]
    repeat' split
    all_goals first | exact here | exact h.arm s _ hs
  case restart => exact h.done _ (h.restart s hs)
  case readEvents =>
    simp only [serve, serveReadEvents]
    repeat' split
    all_goals first | exact here | exact h.done _ (h.drain s _ hs)
  case readPans =>
    simp only [serve, serveReadPans]
    split
    · exact here
    · exact h.keepsSnapshot (Run.forEach (fun n s => run_checkPan n s) _ s) _ hs
  case readMap =>
    simp only [serve, serveReadMap]
    split
    · exact here
    · exact h.keepsSnapshot (Run.forEach (fun c s => run_checkCoil c s) _ s) _ hs
  case configure => exact h.keepsConfigure body hs
  case hello =>
    have hr := run_hello (linkGen l) s (D := fun _ => True) trivial (holdsNone_all s) (waitsNone_all s)
    simp only [serve, serveHello]
    split
    · exact here
    · split
      · exact here
      · split
        all_goals next ht => exact runs _ (ht ▸ hr)
  case sweep =>
    simp only [serve, serveSweep]
    repeat' split
    all_goals first | exact here | exact runs _ (serves_sweep _ _ s)
  case fetch =>
    simp only [serve, serveFetch]
    repeat' split
    all_goals first
      | exact here
      | (obtain ⟨f, hf, e⟩ := serves_fetch (linkGen l) _ s; rw [e]; exact runs f hf)
  case setCap =>
    simp only [serve, serveSetCap, setCap]
    repeat' split
    all_goals first | exact here | exact h.done _ (h.keepsMoveTarget _ _ _ s hs)
  case shed =>
    simp only [serve, serveShed, shedTo]
    repeat' split
    all_goals first | exact here | exact h.done _ (h.keepsMoveTarget _ _ _ s hs)
  case readLoad =>
    simp only [serve, serveReadLoad]
    split <;> exact here

theorem RunRules.stepRules (h : RunRules P Q) : StepRules P Q where
  done := h.done
  ports := h.ports
  portsAfter := h.portsAfter
  reset := h.reset
  millisecond := h.keepsMillisecond
  decrement n s hs := h.run s _ (serves_decrementTimer n s) hs
  serve := h.keepsServe
  expiry _ _ _ s _ hw _ hs := h.done _ (h.keepsExpiry hw s hs)
  timer n s hs := h.done _ (h.run s _ (serves_timerCompletes n s) hs)
  retest g s hs := h.done _ (h.run s _ (serves_retestDesk g s) hs)

/-- What runs of updates keep, RESTART's work on the generators keeps. -/
theorem restartGens_keeps (hrun : ∀ s f, Serves s f → P s → P f.state) {s : State} (hs : P s) :
    P (allGens.foldl restartGen s) :=
  List.foldlRecOn allGens restartGen hs fun t ht g _ => by
    obtain ⟨f, hf, e⟩ := serves_restartGen t g
    rw [e]
    exact hrun t f hf ht

end

end Sys2Proof.Machine

/-! PROOFS. Four things every command keeps: the commands waiting, the bound of the Event Queue, the coils without a relay,
and, until a CHECK TEST arms a mark, the validity of every check code. Each is a predicate that meets the rules of a run. -/

namespace Sys2Proof.Machine

/-! ## Every command answers a next state -/

theorem expire_next (f : State → Option Nat) (work : Op) (s : State) : ∃ t, expire f work s = .next t := by
  unfold expire
  split
  · exact ⟨s, rfl⟩
  · split <;> exact ⟨_, rfl⟩

theorem exec_next (c : Instr) (s : State) : ∃ t, exec c s = .next t := by
  cases hf : countOf c with
  | some f =>
    rcases expiryWork_of_countOf hf with ⟨work, hw⟩ | ⟨l, rfl⟩
    · rw [exec_expiry hf hw]
      exact expire_next f work s
    · change ∃ t, execGapTimeout l s = _
      unfold execGapTimeout
      split
      · exact ⟨s, rfl⟩
      · split <;> exact ⟨_, rfl⟩
  | none =>
    cases c
    case replySent l =>
      change ∃ t, execReplySent l s = _
      unfold execReplySent
      split <;> exact ⟨_, rfl⟩
    case timerDone n =>
      change ∃ t, execTimerDone n s = _
      unfold execTimerDone
      split <;> exact ⟨_, rfl⟩
    case waitConditionCleared g =>
      change ∃ t, execWaitConditionCleared g s = _
      unfold execWaitConditionCleared
      split <;> exact ⟨_, rfl⟩
    all_goals first
      | exact ⟨_, rfl⟩
      | simp [countOf] at hf

/-! ## The commands waiting -/

theorem pending_setParam (s : State) (v : Nat) (p : Param) : (s.setParam v p).pending = s.pending := by cases p <;> rfl

theorem pending_arm (s : State) (x : TestTarget) : (s.arm x).pending = s.pending := by cases x <;> rfl

theorem pending_restart (s : State) : (restart s).pending = s.pending :=
  restartGens_keeps (P := fun t => t.pending = s.pending) (fun _ _ h e => h.pending.trans e) (s := s.unchecked) rfl

theorem pending_rules (q : List Instr) : RunRules (fun s => s.pending = q) (fun s => s.pending = q) where
  run _ _ h e := h.pending.trans e
  done _ e := e
  ports _ _ e := e
  portsAfter _ _ e := e
  reset _ _ _ e := e
  tick _ e := e
  permit _ _ e := e
  window _ _ _ e := e
  account _ _ _ e := e
  drain _ _ e := e
  param s v p _ e := (pending_setParam s v p).trans e
  arm s x e := (pending_arm s x).trans e
  restart s e := (pending_restart s).trans e

/-- Settles O2: no arm of the dispatcher ends in a fault or a refusal, and none reads or writes the queue of commands. -/
theorem everyCommandCompletes : Obligations.EveryCommandCompletes := by
  unfold Obligations.EveryCommandCompletes
  intro c s
  obtain ⟨t, ht⟩ := exec_next c s
  exact ⟨t, ht, exec_keeps (pending_rules s.pending).stepRules rfl ht⟩

/-! ## The Event Queue -/

/-- The part on its way into SAFE: the event posted and the generators stopped, the records not yet written afresh. -/
def safeStopped (b : BadRecord) (s : State) : State := allGens.foldl safeStop (({ s with safe := true } : State).postSafe b)

theorem enterSafe_eq (b : BadRecord) (s : State) : enterSafe b s =
    { (safeStopped b s).cleared with
      levels := { (safeStopped b s).cleared.levels with codeOk := true }, marks := TableMarks.clear } := by
  unfold enterSafe safeStopped
  rfl

/-- What the event leaves and each stop keeps holds of the stopped part. -/
theorem safeStopped_induction {P : State → Prop} {b : BadRecord} {s : State}
    (h : P (({ s with safe := true } : State).postSafe b)) (hstop : ∀ t, P t → ∀ g, P (safeStop t g)) : P (safeStopped b s) :=
  List.foldlRecOn allGens safeStop h fun t ht g _ => hstop t ht g

theorem queueOk_of_empty {s : State} (h : s.events = []) (hl : s.eventsLost = false) : QueueOk s := by
  simp [QueueOk, h, hl]

theorem queueOk_enterSafe (b : BadRecord) {s : State} (h : QueueOk s) : QueueOk (enterSafe b s) := by
  have hstopped : QueueOk (safeStopped b s) :=
    safeStopped_induction (queueOk_postEvent _ _ h) fun t ht g => by
      unfold safeStop
      split
      · exact ht
      · exact queueOk_postEvent _ _ ht
  rw [enterSafe_eq]
  generalize safeStopped b s = u at hstopped
  exact hstopped

theorem queueOk_run {s : State} {f : Flow} (h : Serves s f) (hq : QueueOk s) : QueueOk f.state := by
  obtain ⟨t, ht, rfl | ⟨b, _, rfl⟩⟩ := h
  · exact ht.queueOk hq
  · exact queueOk_enterSafe b (ht.queueOk hq)

/-- What is left of a list, or of a PAN MOVED a slot, is within its bound. -/
theorem queueOk_drain {s : State} (n : Nat) (h : QueueOk s) :
    QueueOk { s with events := s.events.drop n, eventsLost := false } := by
  obtain ⟨hroom, _, hmoved⟩ := h
  refine ⟨?_, nofun, fun m => ?_⟩
  · simp only [List.length_drop]
    omega
  · exact ((List.drop_sublist n s.events).countP_le (p := fun e => decide (e.kind = .panMoved) && (e.pan.map (·.slot) == some m))).trans
      (hmoved m)

theorem queueOk_rules : RunRules QueueOk QueueOk where
  run _ _ := queueOk_run
  done _ h := h
  ports _ _ h := h
  portsAfter _ _ h := h
  reset _ _ _ _ := queueOk_of_empty rfl rfl
  tick _ h := h
  permit _ _ h := h
  window _ _ _ h := h
  account _ _ _ h := h
  drain _ n h := queueOk_drain n h
  param _ _ p _ h := by cases p <;> exact h
  arm _ x h := by cases x <;> exact h
  restart _ _ := queueOk_of_empty rfl rfl

/-- Settles O7: posting keeps the bound, and reading events and the resets only take events away. -/
theorem eventQueueStaysBounded : Obligations.EventQueueStaysBounded := by
  unfold Obligations.EventQueueStaysBounded
  intro s t hs ht
  exact step_keeps queueOk_rules.stepRules (fun _ _ _ h => h) hs ht

/-! ## The coils of columns 0 and 7 -/

theorem cleared_fixed (r : Coil) (h : CoilFixed r) : CoilFixed r.cleared := toOff_fixed r h

theorem relaysOk_of_coils {s t : State} (h : ∀ c, CoilFixed (s.coil c) → CoilFixed (t.coil c)) (hs : RelaysOk s) : RelaysOk t :=
  fun c hc => h c (hs c hc)

theorem coil_cleared (s : State) (c : CoilNo) : s.cleared.coil c = (s.coil c).cleared := by
  simp [State.coil, State.cleared]

/-- SAFE entry writes the coils afresh from what they were before it (R168). -/
theorem coil_enterSafe (b : BadRecord) (s : State) (c : CoilNo) : (enterSafe b s).coil c = (s.coil c).cleared := by
  have hstopped : (safeStopped b s).coils = s.coils :=
    safeStopped_induction (P := fun t => t.coils = s.coils) (by simp [State.postSafe]) fun t ht g => by
      unfold safeStop
      split
      · exact ht
      · simpa [State.postStopped] using ht
  rw [enterSafe_eq]
  generalize safeStopped b s = u at hstopped
  change u.cleared.coil c = _
  rw [coil_cleared]
  simp only [State.coil, hstopped]

theorem relaysOk_run {s : State} {f : Flow} (h : Serves s f) (hr : RelaysOk s) : RelaysOk f.state := by
  obtain ⟨t, ht, rfl | ⟨b, _, rfl⟩⟩ := h
  · exact ht.relaysOk hr
  · change RelaysOk (enterSafe b t)
    exact relaysOk_of_coils (fun c h => by rw [coil_enterSafe]; exact cleared_fixed _ h) (ht.relaysOk hr)

theorem tick_fixed (r : Coil) (h : CoilFixed r) : CoilFixed r.tick := by
  obtain ⟨d, cov, hot, flt, st, ok⟩ := r
  cases st with
  | off m =>
    obtain ⟨hd, hm⟩ := h
    cases m with
    | none => exact ⟨hd, rfl⟩
    | some k => cases hm
  | switching => exact h.2.elim
  | _ => exact h

theorem relaysOk_restart {s : State} (h : RelaysOk s) : RelaysOk (restart s) := by
  have hunchecked : RelaysOk s.unchecked :=
    relaysOk_of_coils (fun c hc => by simpa [State.coil, State.unchecked, CoilFixed] using hc) h
  have hgens : RelaysOk (allGens.foldl restartGen s.unchecked) := restartGens_keeps (fun _ _ => relaysOk_run) hunchecked
  refine relaysOk_of_coils (s := allGens.foldl restartGen s.unchecked) (fun c hc => ?_) hgens
  change CoilFixed ((allGens.foldl restartGen s.unchecked).cleared.coil c)
  rw [coil_cleared]
  exact cleared_fixed _ hc

theorem relaysOk_powerOn (straps : BitVec 2) (q : List Instr) (k : Nat) (low : Bool) :
    RelaysOk { State.powerOn straps q k with rstLow := low } := by
  intro c _
  change CoilFixed ((State.powerOn straps q k).coil c)
  rw [coil_powerOn]
  exact ⟨rfl, rfl⟩

theorem relaysOk_rules : RunRules RelaysOk RelaysOk where
  run _ _ := relaysOk_run
  done _ h := h
  ports _ _ h := h
  portsAfter _ _ h := h
  reset _ _ _ _ := relaysOk_powerOn _ _ _ _
  tick _ h := relaysOk_of_coils (fun c hc => by simpa [State.coil, State.tickCounts] using tick_fixed _ hc) h
  permit _ _ h := h
  window _ _ _ h := h
  account _ _ _ h := h
  drain _ _ h := h
  param _ _ p _ h := by cases p <;> exact h
  arm _ x h := by cases x <;> exact h
  restart _ := relaysOk_restart

/-- Settles O8: no update starts a relay of a coil that has none, and a relay command leaves such a coil alone. -/
theorem outerColumnsStayHome : Obligations.OuterColumnsStayHome := by
  unfold Obligations.OuterColumnsStayHome
  intro s t hs ht
  exact step_keeps relaysOk_rules.stepRules (fun _ _ _ h => h) hs ht

/-! ## Valid check codes -/

/-- Every code is valid, no table mark is armed, and the part is not SAFE. -/
def SoundRun (s : State) : Prop := s.Sound ∧ s.safe = false

/-- Every code is valid and the part is not SAFE. -/
def CodesRun (s : State) : Prop := s.CodesOk ∧ s.safe = false

theorem State.Sound.codesOk {s : State} (h : s.Sound) : s.CodesOk := ⟨h.coils, h.pans, h.orders, h.levels⟩

theorem soundRun_run {s : State} {f : Flow} (h : Serves s f) (hs : SoundRun s) : SoundRun f.state := by
  obtain ⟨t, rfl, hpath, ht⟩ := h.completes hs.1
  exact ⟨ht, hpath.unmoved.safe.trans hs.2⟩

/-- A state with the same checked records and marks is as sound. -/
theorem State.Sound.congr {s t : State} (h : s.Sound) (hc : t.coils = s.coils) (hp : t.pans = s.pans) (hd : t.desks = s.desks)
    (hl : t.levels = s.levels) (hm : t.marks = s.marks) : t.Sound where
  coils c := by simpa only [State.coil, hc] using h.coils c
  pans n := by simpa only [State.pan, hp] using h.pans n
  orders g := by simpa only [State.desk, hd] using h.orders g
  levels := hl ▸ h.levels
  marks := hm.trans h.marks

theorem sound_powerOn (straps : BitVec 2) (q : List Instr) (k : Nat) : (State.powerOn straps q k).Sound where
  coils c := by rw [coil_powerOn]; rfl
  pans n := by rw [pan_powerOn]; rfl
  orders g := by rw [desk_powerOn]; rfl
  levels := rfl
  marks := rfl

theorem sound_powerOn_low (straps : BitVec 2) (q : List Instr) (k : Nat) (low : Bool) :
    ({ State.powerOn straps q k with rstLow := low } : State).Sound :=
  (sound_powerOn straps q k).congr rfl rfl rfl rfl rfl

theorem codeOk_tick (r : Coil) : r.tick.codeOk = r.codeOk := by
  unfold Coil.tick
  split <;> rfl

theorem sound_tickCounts {s : State} (h : s.Sound) : s.tickCounts.Sound where
  coils c := by simpa [State.coil, State.tickCounts, codeOk_tick] using h.coils c
  pans := h.pans
  orders g := by simpa [State.desk, State.tickCounts, Desk.orderOk, Desk.tick] using h.orders g
  levels := h.levels
  marks := h.marks

/-- What RESTART begins from is sound, whatever the codes and marks were (R165, R174). -/
theorem sound_unchecked {s : State} (h : s.levels.codeOk = true) : s.unchecked.Sound where
  coils c := by simp [State.coil, State.unchecked]
  pans n := by simp [State.pan, State.unchecked]
  orders g := by
    simp only [State.desk, State.unchecked, Fin.getElem_fin, Vector.getElem_map, Desk.orderOk]
    cases s.desks[g.val].order <;> rfl
  levels := h
  marks := rfl

theorem sound_cleared {s : State} (h : s.Sound) : s.cleared.Sound where
  coils c := by rw [coil_cleared]; rfl
  pans n := by simp [State.pan, State.cleared, Pan.freed]
  orders := h.orders
  levels := h.levels
  marks := h.marks

theorem sound_restart {s : State} (h : s.levels.codeOk = true) : (restart s).Sound := by
  have hgens : (allGens.foldl restartGen s.unchecked).Sound :=
    restartGens_keeps (P := State.Sound)
      (fun t f hf ht => by obtain ⟨u, rfl, _, hu⟩ := hf.completes ht; exact hu) (sound_unchecked h)
  exact (sound_cleared hgens).congr rfl rfl rfl rfl (sound_cleared hgens).marks.symm

theorem sound_setParam {s : State} (h : s.Sound) (v : Nat) (p : Param) : (s.setParam v p).Sound := by
  cases p <;> first | exact h.congr rfl rfl rfl rfl rfl | exact ⟨h.coils, h.pans, h.orders, rfl, h.marks⟩

theorem safe_setParam (s : State) (v : Nat) (p : Param) : (s.setParam v p).safe = s.safe := by cases p <;> rfl

theorem codesRun_arm {s : State} (h : SoundRun s) (x : TestTarget) : CodesRun (s.arm x) := by
  have hc := h.1.codesOk
  cases x <;> exact ⟨⟨hc.coils, hc.pans, hc.orders, hc.levels⟩, h.2⟩

theorem soundRun_rules : RunRules SoundRun CodesRun where
  run _ _ := soundRun_run
  done _ h := ⟨h.1.codesOk, h.2⟩
  ports _ _ h := ⟨h.1.congr rfl rfl rfl rfl rfl, h.2⟩
  portsAfter _ _ h := ⟨⟨h.1.coils, h.1.pans, h.1.orders, h.1.levels⟩, h.2⟩
  reset s straps _ _ := ⟨(sound_powerOn_low straps s.pending s.freeCount _).codesOk, rfl⟩
  tick _ h := ⟨sound_tickCounts h.1, h.2⟩
  permit _ _ h := ⟨h.1.congr rfl rfl rfl rfl rfl, h.2⟩
  window _ _ _ h := ⟨h.1.congr rfl rfl rfl rfl rfl, h.2⟩
  account _ _ _ h := ⟨h.1.congr rfl rfl rfl rfl rfl, h.2⟩
  drain _ _ h := ⟨h.1.congr rfl rfl rfl rfl rfl, h.2⟩
  param s v p _ h := ⟨sound_setParam h.1 v p, (safe_setParam s v p).trans h.2⟩
  arm _ x h := codesRun_arm h x
  restart _ h := ⟨sound_restart h.1.levels, rfl⟩

/-- Settles O11: from a sound state every run of updates completes and ends sound; a CHECK TEST arms a mark and no more. -/
theorem validCodesStayValid : Obligations.ValidCodesStayValid := by
  unfold Obligations.ValidCodesStayValid
  intro s t hs hsafe ht
  exact step_keeps soundRun_rules.stepRules (fun _ _ _ h => ⟨h.1.congr rfl rfl rfl rfl rfl, h.2⟩) ⟨hs, hsafe⟩ ht

end Sys2Proof.Machine

/-! PROOFS. The front of the queue, power-on reset and the part held in reset (R176), the invariants in the reset state, what
an update of one record does (R165, R166, R172), and the lines and flags read off the state (R2, R140, R170, R183, R196). -/

namespace Sys2Proof.Machine

/-! ## The front of the queue -/

/-- Settles O1: a step on a queue that is not empty is the command at its front. -/
theorem stepRunsTheFront : Obligations.StepRunsTheFront := by
  unfold Obligations.StepRunsTheFront
  exact fun _ _ _ => rfl

/-! ## Power-on reset and a part held in reset -/

/-- RST says nothing about the blocks. -/
theorem State.AtPowerOn.withRst {t : State} (h : t.AtPowerOn) (low : Bool) : ({ t with rstLow := low } : State).AtPowerOn where
  now := h.now
  coils := h.coils
  pans := h.pans
  lists := h.lists
  windows := h.windows
  levels := h.levels
  times := h.times
  counts := h.counts
  phases := h.phases
  accounts := h.accounts
  desks := h.desks
  allocs := h.allocs
  permit := h.permit
  safe := h.safe
  marks := h.marks
  events := h.events
  ports := h.ports

section
variable {s : State}

theorem exec_countOf_low (h : s.rstLow = true) {c : Instr} {f : State → Option Nat} (hf : countOf c = some f) :
    exec c s = .next s := by
  rcases expiryWork_of_countOf hf with ⟨work, hw⟩ | ⟨l, rfl⟩
  · rw [exec_expiry hf hw, expire, if_pos h]
  · exact if_pos h

theorem badMessage_low (h : s.rstLow = true) (l : Link) (causes : Causes) : s.badMessage l causes = s := if_pos (.inl h)

theorem receiveByte_low (h : s.rstLow = true) (l : Link) (b : RxByte) : s.receiveByte l b = s := if_pos h

theorem step_low (h : s.rstLow = true) (hq : s.pending = []) : step s = .next s := by
  rw [step, hq]
  exact if_pos h

end

/-- Settles O5: both resets write the power-on values, and every other command tests RST before it does anything. -/
theorem powerOnReset : Obligations.PowerOnReset := by
  unfold Obligations.PowerOnReset
  refine ⟨fun s straps => ⟨_, rfl, atPowerOn_powerOn straps s.pending s.freeCount, rfl, rfl, rfl⟩,
    fun s => ⟨_, rfl, (atPowerOn_powerOn s.rate s.pending s.freeCount).withRst true, rfl, rfl⟩, fun s h => ?_⟩
  refine ⟨fun g => ⟨?_, ?_⟩, ?_, ?_, fun c => ?_, fun l w => ?_, fun k l body => ?_, fun l k body => ?_, fun l causes => ?_,
    fun c f hf => exec_countOf_low h hf, fun n => if_pos h, fun g => if_pos h, step_low h⟩
  · simp [State.stopLine, h]
  · simp [State.yieldLine, h]
  · simp [State.attn, h]
  · simp [State.faultLine, h]
  · simp [State.relayLine, h]
  · rw [exec_linkByteReceived, receiveByte_low h]
  · rw [exec_requestCommand, messageArrives_low h]
  · exact congrArg Host.Outcome.next (messageArrives_low h l k body)
  · exact congrArg Host.Outcome.next (badMessage_low h l causes)

/-! ## The invariants in the reset state -/

theorem deskOk_initial : DeskOk Desk.initial := by simp [DeskOk, Desk.initial]

theorem charge_powerOn (straps : BitVec 2) (q : List Instr) (k : Nat) (g : Gen) : (State.powerOn straps q k).charge g = 0 := by
  rw [State.charge, desk_powerOn]
  rfl

/-- Where no order has a charge, the load of a phase is 0. -/
theorem loadOf_eq_zero {s : State} (h : ∀ g, s.charge g = 0) (p : Phase) : s.loadOf p = 0 := by
  rw [State.loadOf, show s.charge = fun _ => 0 from funext h]
  simp

theorem accountOk_of_idle {s : State} (h : ∀ g, s.charge g = 0) {p : Phase} (hl : (s.account p).load = 0)
    (ht : (s.account p).committed = (s.account p).target) (hs : (s.account p).shed = none) : AccountOk s p := by
  simp [AccountOk, loadOf_eq_zero h, hl, ht, hs]

theorem budgetOk_powerOn (straps : BitVec 2) (q : List Instr) (k : Nat) : BudgetOk (State.powerOn straps q k) :=
  ⟨fun g => by rw [desk_powerOn]; exact deskOk_initial,
    fun p => accountOk_of_idle (charge_powerOn straps q k) (by simp [Account.initial]) (by simp [Account.initial])
      (by simp [Account.initial])⟩

theorem listsOk_powerOn (straps : BitVec 2) (q : List Instr) (k : Nat) : ListsOk (State.powerOn straps q k) :=
  ⟨Nat.zero_le _, .nil, fun n => by rw [pan_powerOn]; exact iff_of_false List.not_mem_nil (fun h => h rfl), fun n _ => by rw [pan_powerOn]; rfl⟩

theorem paramsOk_initial : ParamsOk Params.initial := by simp [ParamsOk, Params.initial]

theorem levelsOk_powerOn (straps : BitVec 2) (q : List Instr) (k : Nat) : LevelsOk (State.powerOn straps q k).levels := by
  constructor <;> simp only [State.powerOn] <;> decide

/-- Settles O6: each invariant holds of the power-on values, whatever the straps. -/
theorem invariantsHoldAtReset : Obligations.InvariantsHoldAtReset := by
  unfold Obligations.InvariantsHoldAtReset
  exact ⟨atPowerOn_powerOn 0 [] 0, sound_powerOn 0 [] 0, rfl, queueOk_of_empty rfl rfl, relaysOk_powerOn 0 [] 0 false,
    budgetOk_powerOn 0 [] 0, listsOk_powerOn 0 [] 0, paramsOk_initial, levelsOk_powerOn 0 [] 0, rfl⟩

/-! ## Updates of one record -/

section
variable {s : State}

theorem checkCoil_bad {c : CoilNo} (h : (s.coil c).codeOk = false) : checkCoil c s = .safe (enterSafe (.coil c) s) :=
  if_neg (by simp [h])

theorem checkPan_bad {n : Slot} (h : (s.pan n).codeOk = false) : checkPan n s = .safe (enterSafe (.pan n) s) :=
  if_neg (by simp [h])

theorem checkOrder_bad {g : Gen} {o : Order} (ho : (s.desk g).order = some o) (h : o.codeOk = false) :
    checkOrder g s = .safe (enterSafe (.order g) s) := by
  rw [checkOrder, ho]
  exact if_neg (by simp [h])

theorem checkCoil_good {c : CoilNo} (h : (s.coil c).codeOk = true) : checkCoil c s = .ok s := if_pos h

theorem checkPan_good {n : Slot} (h : (s.pan n).codeOk = true) : checkPan n s = .ok s := if_pos h

theorem editCoil_good {c : CoilNo} (h : (s.coil c).codeOk = true) (f : Coil → Coil) :
    editCoil c f s = if f (s.coil c) = s.coil c then .ok s else .ok (s.writeCoil c (f (s.coil c))) := by
  rw [editCoil, checkCoil_good h, Flow.ok_andThen]

theorem editPan_good {n : Slot} (h : (s.pan n).codeOk = true) (f : Pan → Pan) :
    editPan n f s = if f (s.pan n) = s.pan n then .ok s else .ok (s.writePan n (f (s.pan n))) := by
  rw [editPan, checkPan_good h, Flow.ok_andThen]

end

theorem forEach_eq_foldl {α : Type} (work : α → State → Flow) : ∀ (xs : List α) (f : Flow),
    f.andThen (forEach work xs) = xs.foldl (fun f x => f.andThen (work x)) f
  | [], f => Flow.andThen_ok f
  | x :: xs, f => by
    rw [List.foldl_cons, ← forEach_eq_foldl work xs (f.andThen (work x)), Flow.andThen_assoc]
    rfl

/-- Settles O24: the check, the comparison and the write of each update, said as equations. -/
theorem updatesVerifyAndRefresh : Obligations.UpdatesVerifyAndRefresh := by
  unfold Obligations.UpdatesVerifyAndRefresh
  refine ⟨fun s k => ⟨rfl, rfl⟩, fun α work xs s => forEach_eq_foldl work xs (.ok s), fun s c f => ⟨fun h => ?_, fun h he => ?_, fun h he => ?_⟩,
    fun s n f => ⟨fun h => ?_, fun h he => ?_, fun h he => ?_⟩, fun s n f => ⟨fun h => ?_, fun h => ?_⟩, fun s g legs => ⟨rfl, ?_⟩,
    fun s g o ho h => checkOrder_bad ho h⟩
  · rw [editCoil, checkCoil_bad h, Flow.andThen]
  · rw [editCoil_good h, if_pos he]
  · rw [editCoil_good h, if_neg he]
    rfl
  · rw [editPan, checkPan_bad h, Flow.andThen]
  · rw [editPan_good h, if_pos he]
  · rw [editPan_good h, if_neg he]
    rfl
  · rw [rewritePan, checkPan_bad h, Flow.andThen]
  · rw [rewritePan, checkPan_good h, Flow.ok_andThen]
    rfl
  · simp [State.writeOrder]

/-! ## The grid, the lines and the link flags -/

/-- The generators next to a coil, by its column (R2). -/
theorem altGen_val (c : CoilNo) : (altGen c).map (·.val) = if column c = 0 ∨ column c = 7 then none
    else if column c % 2 = 0 then some (column c / 2 - 1) else some (column c / 2 + 1) := by
  revert c
  decide

theorem hasRelay_iff (c : CoilNo) : hasRelay c = true ↔ 1 ≤ column c ∧ column c ≤ 6 := by
  rw [hasRelay, decide_eq_true_iff, column]
  omega

theorem relayLine_iff {s : State} (hr : s.rstLow = false) (c : CoilNo) :
    s.relayLine c = true ↔ (1 ≤ column c ∧ column c ≤ 6) ∧ (s.coil c).driver = .alternate := by
  simp [State.relayLine, hr, hasRelay_iff]

theorem events_isEmpty_iff (q : List Event) : (!q.isEmpty) = true ↔ q ≠ [] := by cases q <;> simp

/-- The byte of three flags, bit by bit (R183). -/
theorem flags_getLsbD (a b c : Bool) :
    let flags : Byte := (if a then 1 else 0) ||| (if b then 2 else 0) ||| (if c then 0 else 4)
    flags.getLsbD 0 = a ∧ flags.getLsbD 1 = b ∧ flags.getLsbD 2 = !c ∧ ∀ i, 3 ≤ i → flags.getLsbD i = false := by
  refine ⟨?_, ?_, ?_, fun i hi => ?_⟩
  · cases a <;> cases b <;> cases c <;> rfl
  · cases a <;> cases b <;> cases c <;> rfl
  · cases a <;> cases b <;> cases c <;> rfl
  · have hlt : ((if a then 1 else 0) ||| (if b then 2 else 0) ||| (if c then 0 else 4) : Byte).toNat < 2 ^ 3 := by
      cases a <;> cases b <;> cases c <;> decide
    rw [BitVec.getLsbD]
    exact Nat.testBit_lt_two_pow (hlt.trans_le (Nat.pow_le_pow_right (by decide) hi))

/-- Settles O53: the grid column by column, and each line and flag as the test it computes. -/
theorem linesFollowTheState : Obligations.LinesFollowTheState := by
  unfold Obligations.LinesFollowTheState
  refine ⟨fun c => ⟨rfl, rfl, rfl, altGen_val c, hasRelay_iff c, rfl, fun g => decide_eq_true_iff, rfl, fun g hg => ?_, fun s => rfl⟩,
    fun s hr => ⟨fun g => ⟨?_, ?_⟩, ?_, ?_, fun c => relayLine_iff hr c, fun l => ?_⟩⟩
  · simp [driverAt, hg]
  · simp [State.stopLine, hr]
  · simp [State.yieldLine, hr]
  · simp [State.attn, hr]
  · simp [State.faultLine, hr]
  · obtain ⟨h0, h1, h2, h3⟩ := flags_getLsbD (s.port l).overrun s.safe s.events.isEmpty
    refine ⟨h0, h1, ?_, h3⟩
    rw [State.linkFlags, h2]
    exact events_isEmpty_iff s.events

end Sys2Proof.Machine

/-! PROOFS. What a message is answered before its own rule is reached (R181, R184), what a SAFE part answers (R169), and how a
RECEIVING port assembles a message (R179, R180). -/

namespace Sys2Proof.Machine

/-! ## Messages that are refused by their routing -/

section
variable {s : State} {l : Link} {body : List Byte}

theorem ofCode_eq_none {kind : Byte} (h : ∀ k : ReqKind, k.code ≠ kind) : ReqKind.ofCode kind = none := by
  rw [ReqKind.ofCode, List.find?_eq_none]
  intro k _
  simpa using h k

theorem route_unknown {kind : Byte} (h : ∀ k : ReqKind, k.code ≠ kind) : route l ⟨kind, body⟩ s = (s, .refused .unknownKind) := by
  rw [route, ofCode_eq_none h]

theorem route_wrongLink {k : ReqKind} (h : kindAllowed k l = false) : route l ⟨k.code, body⟩ s = (s, .refused .wrongLink) := by
  rw [route, ofCode_code]
  exact if_pos h

theorem route_body {k : ReqKind} (h : kindAllowed k l = true) (hk : bodyless k = true) (hb : body ≠ []) :
    route l ⟨k.code, body⟩ s = (s, .refused .outOfRange) := by
  rw [route, ofCode_code]
  simp only [h, Bool.true_eq_false, if_false]
  exact if_pos ⟨hk, hb⟩

theorem route_served {k : ReqKind} (h : kindAllowed k l = true) (hb : bodyless k = true → body = []) :
    route l ⟨k.code, body⟩ s = serve k l body s := by
  rw [route, ofCode_code]
  simp only [h, Bool.true_eq_false, if_false]
  exact if_neg fun hn => hn.2 (hb hn.1)

/-- A request command on a listening port is the taking of its message. -/
theorem exec_taken (h : s.Listens l) (hb : bodyFits body = true) (k : ReqKind) :
    exec (requestCommand k l body) s = .next (s.takeMessage l ⟨k.code, body⟩) := by
  rw [exec_requestCommand, messageArrives_listens h _ hb]

theorem exec_unknownKind (h : s.Listens l) (hb : bodyFits body = true) (kind : Byte) :
    exec (.unknownKind l kind body) s = .next (s.takeMessage l ⟨kind, body⟩) :=
  congrArg Host.Outcome.next (messageArrives_listens h kind hb)

theorem refuses_of_route {c : Instr} {m : Message} {r : Reason} (hc : exec c s = .next (s.takeMessage l m))
    (hr : route l m s = (s, .refused r)) : Refuses c l r.code s := by
  refine ⟨_, hc, ?_⟩
  rw [State.takeMessage, hr]
  exact answered_reply s l _ _ (.refused r)

end

/-- Which kinds a link carries, by the ranges of R190's table. -/
theorem kindAllowed_iff (k : ReqKind) (l : Link) : kindAllowed k l = true ↔
    k = .status ∨ ((k = .hello ∨ k = .sweep ∨ k = .fetch) ∧ ∃ g, l = .gl g) ∨
      ((k = .setCap ∨ k = .shed ∨ k = .readLoad) ∧ l = .sl) ∨ (0x11 ≤ k.code ∧ k.code ≤ 0x1E ∧ l = .pl) := by
  cases k <;> cases l <;> simp [kindAllowed, ReqKind.code]

theorem bodyless_iff (k : ReqKind) :
    bodyless k = true ↔ k ∈ [ReqKind.status, .hello, .stopAll, .restart, .readPans, .readMap, .readLoad] := by
  cases k <;> decide

/-- Settles O16: the three tests of the routing, in their order. -/
theorem unroutedRequestsAreRefused : Obligations.UnroutedRequestsAreRefused := by
  unfold Obligations.UnroutedRequestsAreRefused
  intro s l body hl hb
  refine ⟨fun kind hk => refuses_of_route (exec_unknownKind hl hb kind) (route_unknown hk), fun k => ?_⟩
  simp only [← kindAllowed_iff, ← bodyless_iff]
  exact ⟨fun h => refuses_of_route (exec_taken hl hb k) (route_wrongLink (Bool.eq_false_iff.mpr h)),
    fun h hk hne => refuses_of_route (exec_taken hl hb k) (route_body h hk hne)⟩

/-! ## A SAFE part -/

/-- Every rule but three begins with the test of SAFE (R169). -/
theorem serve_safe {s : State} (h : s.safe = true) {k : ReqKind} (hk : k ∉ [ReqKind.status, .restart, .readEvents]) (l : Link)
    (body : List Byte) : serve k l body s = (s, .refused .safe) := by
  cases k
  case status => simp at hk
  case restart => simp at hk
  case readEvents => simp at hk
  all_goals exact if_pos h

/-- Settles O17: the rule of each kind answers SAFE first. -/
theorem safePartRefuses : Obligations.SafePartRefuses := by
  unfold Obligations.SafePartRefuses
  intro s k l body hsafe hl hb ha he hk
  exact refuses_of_serve hl hb ha he (serve_safe hsafe hk l body)

/-! ## Bad messages -/

/-- A message that ends as bad is answered BAD FRAME with its first cause. -/
theorem answered_endBad (s : State) (l : Link) (causes : Causes) : Answered l 0x85 [causeCode causes] s (s.endBad l causes) :=
  answered_reply s l none causes (.badFrame (causeCode causes))

section
variable {s : State} {l : Link} {causes : Causes}

theorem exec_badFrame_idle (hr : s.rstLow = false) (ha : causes.any = true) (hx : (s.port l).rx = .idle) :
    exec (.badFrame l causes) s = .next (s.endBad l causes) := by
  change Host.Outcome.next (s.badMessage l causes) = _
  rw [State.badMessage, if_neg (by simp [hr, ha]), hx]

theorem exec_badFrame_receiving {bytes : List Byte} {noted : Causes} {gap : Nat} (hr : s.rstLow = false) (ha : causes.any = true)
    (hx : (s.port l).rx = .receiving bytes noted gap) :
    exec (.badFrame l causes) s = .next (s.endBad l (noted.union causes)) := by
  change Host.Outcome.next (s.badMessage l causes) = _
  rw [State.badMessage, if_neg (by simp [hr, ha]), hx]

theorem exec_badFrame_inHand {m : Option Message} {noted : Causes} {r : Reply} (hr : s.rstLow = false) (ha : causes.any = true)
    (hx : (s.port l).rx = .inHand m noted r) :
    exec (.badFrame l causes) s = .next (s.setPort l ⟨.inHand m noted r, true, (s.port l).forcedBad⟩) := by
  change Host.Outcome.next (s.badMessage l causes) = _
  rw [State.badMessage, if_neg (by simp [hr, ha]), hx]
  simp only [hx]

/-- A gap timer that has passed 5 ms ends the message at once. -/
theorem exec_gapTimeout_passed {bytes : List Byte} {noted : Causes} (hr : s.rstLow = false)
    (hx : (s.port l).rx = .receiving bytes noted 6) :
    exec (.gapTimeout l) s = .next (s.endBad l { noted with gap := true }) := by
  have hgap : s.untilGap l = some 0 := by rw [State.untilGap, hx]; rfl
  have hends : s.gapEnds l = s.endBad l { noted with gap := true } := by rw [State.gapEnds, hx]
  change execGapTimeout l s = _
  rw [execGapTimeout, if_neg (by simp [hr]), hgap]
  exact congrArg Host.Outcome.next hends

end

/-- Settles O14: the three receiver states a bad message meets, and the gap. -/
theorem badMessagesAreAnswered : Obligations.BadMessagesAreAnswered := by
  unfold Obligations.BadMessagesAreAnswered
  intro s l causes hr
  exact ⟨fun ha hx => ⟨_, exec_badFrame_idle hr ha hx, answered_endBad s l causes⟩,
    fun bytes noted gap ha hx => ⟨_, exec_badFrame_receiving hr ha hx, answered_endBad s l (noted.union causes)⟩,
    fun m noted r ha hx => exec_badFrame_inHand hr ha hx,
    fun bytes noted hx => ⟨_, exec_gapTimeout_passed hr hx, answered_endBad s l { noted with gap := true }⟩⟩

/-! ## Bytes at a RECEIVING port -/

theorem union_byteCauses (noted : Causes) (b : RxByte) : noted.union (byteCauses b) =
    { noted with parity := noted.parity || b.parityErr, framing := noted.framing || b.framingErr } := by
  simp [Causes.union, byteCauses, Causes.none]

theorem receiveByte_receiving {s : State} {l : Link} {bytes : List Byte} {noted : Causes} {gap : Nat} (hr : s.rstLow = false)
    (hx : (s.port l).rx = .receiving bytes noted gap) (b : RxByte) :
    s.receiveByte l b = s.appendByte l bytes
      { noted with parity := noted.parity || b.parityErr, framing := noted.framing || b.framingErr } b.data := by
  simp [State.receiveByte, hr, hx, union_byteCauses]

theorem any_setCheck (c : Causes) (b : Bool) : ({ c with check := c.check || b } : Causes).any = (c.any || b) := by
  obtain ⟨p, f, n, k, g⟩ := c
  cases p <;> cases f <;> cases n <;> cases k <;> cases g <;> cases b <;> rfl

theorem any_noted {c : Causes} {p f : Bool} (h : ({ c with parity := c.parity || p, framing := c.framing || f } : Causes).any = false) :
    c.any = false := by
  simp only [Causes.any, Bool.or_eq_false_iff] at h ⊢
  tauto

section
variable {s : State} {l : Link} {bytes : List Byte} {causes : Causes} {check : Byte}

theorem endMessage_bad (h : causes.any = true ∨ crc bytes ≠ check) : s.endMessage l bytes causes check =
    s.endBad l { causes with check := causes.check || decide (crc bytes ≠ check) } := by
  refine if_pos ?_
  rw [any_setCheck]
  simpa using h

theorem endMessage_good {len kind : Byte} {body : List Byte} (ha : causes.any = false)
    (hc : crc (len :: kind :: body) = check) : s.endMessage l (len :: kind :: body) causes check = s.takeMessage l ⟨kind, body⟩ := by
  refine if_neg ?_
  rw [any_setCheck]
  simp [ha, hc]

end

/-- A partial message whose length byte agrees is the beginning of the whole message. -/
theorem messageArrives_rest {s : State} {l : Link} {len kind : Byte} {body : List Byte} {noted : Causes} {gap : Nat}
    (hr : s.rstLow = false) (hx : (s.port l).rx = .receiving (len :: kind :: body) noted gap) (ha : noted.any = false)
    (hlen : body.length = len.toNat) (hfit : len.toNat ≤ 248) :
    s.messageArrives l kind body = s.takeMessage l ⟨kind, body⟩ := by
  have hfits : bodyFits body = true := by
    rw [bodyFits, decide_eq_true_iff, hlen]
    exact hfit
  have hlen' : byteOf (min 255 body.length) = len := by
    rw [hlen, Nat.min_eq_right (by omega), byteOf, BitVec.ofNat_toNat, BitVec.setWidth_eq]
  simp [State.messageArrives, hr, hfits, hx, Receiver.awaits, ha, Message.bytes, hlen']

/-! ## The bits of a byte -/

theorem crc_append (bytes : List Byte) (b : Byte) : crc (bytes ++ [b]) =
    (List.range 8).foldl (fun (r : Byte) _ => if r.msb then (r <<< 1) ^^^ 0x35 else r <<< 1) (crc bytes ^^^ b) := by
  rw [crc, List.foldl_append]
  rfl

theorem receivedByte_data (w : LineByte) {i : Nat} (hi : i < 8) : (receivedByte w).data.getLsbD i = w.getLsbD i := by
  simp [receivedByte, hi]

theorem receivedByte_parity (w : LineByte) :
    (receivedByte w).parityErr = true ↔ ((List.range 9).filter fun i => w.getLsbD i).length % 2 = 1 := by
  rw [receivedByte, oddOnes, decide_eq_true_iff, List.countP_eq_length_filter]

theorem receivedByte_framing (w : LineByte) : (receivedByte w).framingErr = true ↔ w.getLsbD 9 = false := by
  simp [receivedByte]

/-- What the part sends is received whole, with even parity and a stop bit, whatever the byte. -/
theorem receivedByte_lineByte (b : Byte) : receivedByte (lineByte b) = ⟨b, false, false⟩ := by
  revert b
  decide +kernel

/-- Settles O13: LEN, the bytes up to CHECK, CHECK itself, and the bits of a byte. -/
theorem receivingPortAssembles : Obligations.ReceivingPortAssembles := by
  unfold Obligations.ReceivingPortAssembles
  refine ⟨fun s l w bytes noted gap hr hx => ?_, rfl, crc_append, fun w => ⟨fun i hi => receivedByte_data w hi,
    receivedByte_parity w, receivedByte_framing w, rfl⟩, receivedByte_lineByte, fun r => ?_, fun s straps => ⟨_, rfl, rfl⟩,
    rfl, rfl, rfl, rfl⟩
  · simp only [exec_linkByteReceived, receiveByte_receiving hr hx]
    cases bytes with
    | nil =>
      simp only [State.appendByte]
      split
      · next h =>
        rw [if_neg (show ¬ Config.maxLen < _ from Nat.not_lt.mpr h)]
        rfl
      · next h =>
        rw [if_pos (show Config.maxLen < _ from Nat.lt_of_not_le h)]
        exact ⟨_, rfl, answered_endBad s l _⟩
    | cons len rest =>
      simp only [State.appendByte]
      split
      · rfl
      · next h =>
        simp only [if_pos (not_not.mp h)]
        split
        · next hbad =>
          rw [endMessage_bad hbad]
          exact ⟨_, rfl, answered_endBad s l _⟩
        · next hgood =>
          rintro kind body rfl hfit
          obtain ⟨hany, hcrc⟩ := not_or.mp hgood
          have hany := Bool.eq_false_iff.mpr hany
          have hrest := messageArrives_rest hr hx (any_noted hany) (by simpa using not_not.mp h) hfit
          rw [endMessage_good hany (not_not.mp hcrc)]
          refine ⟨fun k hk => ?_, fun _ => ?_⟩
          · rw [exec_requestCommand, hk, hrest]
          · exact congrArg Host.Outcome.next hrest.symm
  · rw [Reply.onLine, List.map_map]
    exact List.map_congr_left fun b _ => receivedByte_lineByte b

end Sys2Proof.Machine

/-! PROOFS. No request but CHECK TEST, RESTART and a disable touches a port, and a disable leaves PL's; so an armed mark meets
the reply begun next on its link, and only that one (R173, R185). -/

namespace Sys2Proof.Machine

/-! ## Work that leaves the ports alone -/

/-- The work leaves the ports as they are, whether or not it is abandoned. -/
def PortsKept (s : State) (f : Flow) : Prop := f.state.ports = s.ports

theorem PortsKept.andThen {s : State} {f : Flow} {k : Op} (h : PortsKept s f) (hk : ∀ t, PortsKept t (k t)) :
    PortsKept s (f.andThen k) := by
  cases f with
  | ok t => exact (hk t).trans h
  | safe v => exact h

theorem PortsKept.after {s t : State} {f : Flow} (h : t.ports = s.ports) (hf : PortsKept t f) : PortsKept s f := hf.trans h

theorem PortsKept.forEach {α : Type} {work : α → Op} (h : ∀ x s, PortsKept s (work x s)) :
    ∀ (l : List α) (s : State), PortsKept s (forEach work l s)
  | [], _ => rfl
  | x :: xs, s => (h x s).andThen (PortsKept.forEach h xs)

theorem PortsKept.doIf {k : Op} (b : Bool) (h : ∀ s, PortsKept s (k s)) (s : State) : PortsKept s (doIf b k s) := by
  unfold Machine.doIf
  split
  · exact h s
  · rfl

/-- A run of the narrow scopes leaves the ports alone. -/
theorem Run.portsKept {w : Scope} {D : Gen → Prop} (hw : w ≠ .service) {s : State} {f : Flow} (h : Run w D s f) : PortsKept s f := by
  obtain ⟨t, ht, rfl | ⟨b, _, rfl⟩⟩ := h
  · exact (ht.undisturbed hw).ports
  · exact (apart_enterSafe b t).2.trans (ht.undisturbed hw).ports

section
variable (s : State)

theorem portsKept_checkCoil (c : CoilNo) : PortsKept s (checkCoil c s) :=
  (run_checkCoil (w := .orders) (D := fun _ => True) c s).portsKept (by decide)

theorem portsKept_editCoil (c : CoilNo) (f : Coil → Coil) : PortsKept s (editCoil c f s) :=
  (portsKept_checkCoil s c).andThen fun t => by
    show (Flow.state (if _ then _ else _)).ports = _
    split <;> rfl

theorem portsKept_rewriteCoil (c : CoilNo) (f : Coil → Coil) : PortsKept s (rewriteCoil c f s) :=
  (portsKept_checkCoil s c).andThen fun _ => rfl

theorem portsKept_editPan (n : Slot) (f : Pan → Pan) : PortsKept s (editPan n f s) :=
  (run_trackPan (D := fun _ => True) n f s).portsKept (by decide)

theorem portsKept_rewritePan (n : Slot) (f : Pan → Pan) : PortsKept s (rewritePan n f s) :=
  (run_rewritePan (w := .tracking) (D := fun _ => True) n f s (fun h => by cases h)).portsKept (by decide)

theorem portsKept_settle (before : State) : PortsKept s (settle before s) :=
  (run_settle (D := fun _ => True) before s (holdsNone_all s) (waitsNone_all s)).portsKept (by decide)

theorem portsKept_reportAll (gs : List Gen) : PortsKept s (reportAll gs s) :=
  (run_reportAll (w := .orders) (D := fun _ => True) gs s (holdsNone_all s)).portsKept (by decide)

theorem portsKept_replanPass : PortsKept s (replanPass s) :=
  (run_replanPass (w := .orders) (D := fun _ => True) s (holdsNone_all s)).portsKept (by decide)

theorem portsKept_evaluate : PortsKept s (evaluate s) :=
  (run_evaluate (D := fun _ => True) s (holdsNone_all s)).portsKept (by decide)

theorem portsKept_completeIfDue (n : Slot) : PortsKept s (completeIfDue n s) :=
  (run_completeIfDue (D := fun _ => True) n s (holdsNone_all s)).portsKept (by decide)

theorem portsKept_releaseOrder (g : Gen) (d : Bool) : PortsKept s (releaseOrder g d s) :=
  (run_releaseOrder (w := .orders) (D := fun _ => True) g d s).portsKept (by decide)

theorem portsKept_buildOrder (g : Gen) : PortsKept s (buildOrder g s) :=
  (run_buildOrder (w := .orders) (D := fun _ => True) g s trivial).portsKept (by decide)

theorem portsKept_deliver (g : Gen) : PortsKept s (deliver g s) :=
  ((run_checkOrder (w := .orders) (D := fun _ => True) g s).portsKept (by decide)).andThen fun _ => rfl

theorem ports_dropOrderPosting (g : Gen) : (s.dropOrderPosting g).ports = s.ports :=
  ((path_dropOrderPosting (w := .orders) (D := fun _ => True) s g trivial).undisturbed (by decide)).ports

theorem ports_finishStop (g : Gen) (cause : StopCause) : (s.finishStop g cause).ports = s.ports := by
  unfold State.finishStop
  simp only
  split <;> split <;> simp [State.postStopped, State.postShed, State.emptyMemory, State.dropOrder]

theorem portsKept_stopGen (g : Gen) (cause : StopCause) : PortsKept s (stopGen g cause s) :=
  (PortsKept.after (t := s.setDesk g { s.desk g with state := .stopped }) rfl (portsKept_releaseOrder _ g _)).andThen
    fun t => ports_finishStop t g cause

end

/-! ## Requests that leave the ports alone -/

theorem portsKept_holdFrom : ∀ (slots : List Slot) (gs : List Gen) (s : State), PortsKept s (holdFrom slots gs s)
  | [], gs, s => portsKept_reportAll s gs
  | n :: rest, _, s => (portsKept_editPan s n _).andThen (portsKept_holdFrom rest _)

theorem portsKept_setLevel (n : Slot) (level : Fin 14) (s : State) : PortsKept s (setLevel n level s) := by
  refine (portsKept_editPan s n _).andThen fun t => PortsKept.andThen ?_ fun u => portsKept_settle u s
  split
  · rfl
  · split
    · exact portsKept_reportAll t _
    · rfl

theorem portsKept_stopAll (s : State) : PortsKept s (stopAll s) :=
  (PortsKept.forEach (fun n s => portsKept_editPan s n _) _ s).andThen fun t =>
    (PortsKept.forEach (fun g s => portsKept_stopGen s g .stopAll) _ t).andThen fun u =>
      (PortsKept.doIf _ portsKept_replanPass u).andThen fun v => portsKept_settle v s

theorem portsKept_applyEntries (g : Gen) : ∀ (es : List SweepEntry) (k : Nat) (gs : List Gen) (s : State),
    PortsKept s (applyEntries g es k gs s).flow
  | [], _, _, _ => rfl
  | e :: rest, k, gs, s => by
    have happly : PortsKept s (applyEntry g e s) := (portsKept_rewriteCoil s e.coil _).andThen fun t => by
      show (Flow.state (.ok (if _ then _ else _))).ports = _
      split
      · simp [Flow.state, State.postFault]
      · rfl
    have hcheck := portsKept_checkCoil s e.coil
    unfold applyEntries
    split
    · next t ht => rw [← ht]; exact hcheck
    · next t ht =>
      cases checkCoil_ok ht
      split
      · simp only
        split
        · next v hv => rw [← hv]; exact happly
        · next u hu =>
          rw [hu] at happly
          exact PortsKept.after happly (portsKept_applyEntries g rest k _ u)
      · exact portsKept_applyEntries g rest _ gs s

theorem portsKept_sweep (g : Gen) (es : List SweepEntry) (s : State) : PortsKept s (sweep g es s).1 :=
  (portsKept_applyEntries g es 0 [] s).andThen fun t => (portsKept_reportAll t _).andThen fun u =>
    (portsKept_evaluate u).andThen fun v => portsKept_settle v s

theorem portsKept_hello (g : Gen) (s : State) : PortsKept s (hello g s) := by
  refine (portsKept_releaseOrder s g false).andThen fun t => ?_
  have hdrop : (if (t.desk g).order.isSome then t.dropOrderPosting g else t).ports = t.ports := by
    split
    · exact ports_dropOrderPosting t g
    · rfl
  generalize (if (t.desk g).order.isSome then t.dropOrderPosting g else t) = v at hdrop
  refine PortsKept.after (t := (v.emptyMemory g).setDesk g _) hdrop
    ((PortsKept.forEach (fun c s => portsKept_editCoil s c _) _ _).andThen fun u => ?_)
  refine PortsKept.after (t := (u.setDesk g { u.desk g with state := .joined }).postGen .generatorJoined g) ?_
    ((PortsKept.doIf _ portsKept_replanPass _).andThen fun v => portsKept_settle v s)
  simp [State.postGen]

theorem ports_delivery (g : Gen) (n : Byte) (s : State) : (delivery g n s).1.ports = s.ports := by
  unfold delivery
  split
  · rw [delivered_fst]
    exact portsKept_deliver s g
  · split
    · rfl
    · rw [delivered_fst]
      exact (portsKept_buildOrder s g).andThen fun t => portsKept_deliver t g
  · split
    · split
      · exact State.ports_postEvent _ _
      · rfl
    · rfl

theorem portsKept_confirm (g : Gen) (o : Order) (s : State) : PortsKept s (confirm g o s) :=
  (portsKept_releaseOrder s g false).andThen fun t => ports_dropOrderPosting t g

theorem portsKept_mismatchStop (g : Gen) (s : State) : PortsKept s (mismatchStop g s) :=
  (portsKept_stopGen s g _).andThen fun t => (portsKept_replanPass t).andThen fun u => portsKept_settle u s

theorem ports_fetch (g : Gen) (n : Byte) (s : State) : (fetch g n s).1.ports = s.ports := by
  unfold fetch
  split
  · next o _ =>
    split
    · have hc := portsKept_confirm g o s
      split
      · next t ht => rw [ht] at hc; exact (ports_delivery g n t).trans hc
      · next v hv => rw [hv] at hc; exact hc
    · have hm := portsKept_mismatchStop g s
      split
      · next t ht => rw [ht] at hm; exact hm
      · next v hv => rw [hv] at hm; exact hm
  · split
    · exact ports_delivery g n s
    · rfl

theorem portsKept_moveTarget (p : Phase) (target deadline : Nat) (s : State) : PortsKept s (moveTarget p target deadline s) := by
  unfold moveTarget
  split
  · rfl
  · split
    · unfold State.settleCap PortsKept
      simp only [Flow.state]
      split
      · exact State.ports_postEvent _ _
      · rfl
    · unfold startShed
      simp only
      split
      · split
        · exact PortsKept.after (t := s.setAccount p _) rfl (portsKept_reportAll _ _)
        · rfl
      · exact PortsKept.after (t := (s.setAccount p _).postShed .shedStarted p) (by simp [State.postShed])
          (portsKept_reportAll _ _)

theorem portsKept_checkParam (p : Param) (s : State) : PortsKept s (checkParam p s) := by
  cases p
  case level => exact (run_checkLevels (w := .orders) (D := fun _ => True) s).portsKept (by decide)
  all_goals rfl

theorem ports_setParam (s : State) (v : Nat) (p : Param) : (s.setParam v p).ports = s.ports := by cases p <;> rfl

theorem ports_configure (body : List Byte) (s : State) : (serveConfigure body s).1.ports = s.ports := by
  have hcheck : ∀ p t, checkParam p s = .safe t → t.ports = s.ports := fun p t ht => by
    have := portsKept_checkParam p s
    rwa [ht] at this
  unfold serveConfigure
  repeat' split
  · rfl
  · unfold readParam
    split
    · next ht => exact hcheck _ _ ht
    · next ht => rw [checkParam_ok ht]
  · rfl
  · unfold writeParam
    split
    · next ht => exact hcheck _ _ ht
    · next ht =>
      rw [checkParam_ok ht]
      repeat' split
      · rfl
      · rfl
      · exact ports_setParam s _ _
  · rfl
  · rfl

theorem snapshot_fst (f : Flow) (fields : State → List Byte) : (f.snapshot fields).1 = f.state := by cases f <;> rfl

/-! ## PL's receiver -/

theorem port_pl_discardPartial (s : State) (g : Gen) : (s.discardPartial g).port .pl = s.port .pl := by
  unfold State.discardPartial
  split
  · rw [State.port_setPort, if_neg (by simp)]
  · rfl

theorem portsKept_coilLeaves (c : CoilNo) (s : State) : PortsKept s (coilLeaves c s) := by
  refine (portsKept_editCoil s c _).andThen fun t => ?_
  split
  · split
    · exact portsKept_editPan t _ _
    · rfl
  · rfl

theorem ports_postShrunk (before s : State) : (postShrunk before s).ports = s.ports :=
  ((path_postShrunk (w := .orders) (D := fun _ => True) before s).undisturbed (by decide)).ports

theorem portsKept_coilsLeave (g : Gen) (s : State) : PortsKept s (coilsLeave g s) :=
  (PortsKept.forEach portsKept_coilLeaves _ s).andThen fun t =>
    PortsKept.after (ports_postShrunk s t) ((PortsKept.forEach (fun c s => portsKept_editCoil s c _) _ _).andThen
      fun u => portsKept_reportAll u _)

/-- A disable leaves the ports as the discarding of the generator's partial message leaves them. -/
theorem ports_disableGen (g : Gen) (s : State) : (disableGen g s).state.ports =
    if (s.desk g).state = .disabled then s.ports else (s.discardPartial g).ports := by
  unfold disableGen
  split
  · next h => rw [if_pos h]; rfl
  · next h =>
    rw [if_neg (by simp [h])]
    simp [Flow.state, State.postStopped]
  · next h _ =>
    rw [if_neg h]
    exact (portsKept_stopGen _ g .disable).andThen fun t => portsKept_coilsLeave g t

theorem portsKept_enableGen (g : Gen) (s : State) : PortsKept s (enableGen g s) := by
  unfold enableGen
  split
  · exact PortsKept.after (t := s.setDesk g _) rfl (PortsKept.forEach (fun c s => portsKept_editCoil s c _) _ _)
  · rfl

theorem port_of_ports {s t : State} (h : t.ports = s.ports) (l : Link) : t.port l = s.port l := by simp only [State.port, h]

theorem port_pl_enableGens (enable disable : List Gen) (s : State) : (enableGens enable disable s).state.port .pl = s.port .pl := by
  refine Keeps.andThen (P := fun t => t.port .pl = s.port .pl) ?_ fun t ht => ?_
  · refine List.recOn (motive := fun l => ∀ t : State, t.port .pl = s.port .pl →
      (forEach _ l t).state.port .pl = s.port .pl) allGens (fun t ht => ht) (fun g l ih t ht => ?_) s rfl
    refine Keeps.andThen (P := fun t => t.port .pl = s.port .pl) ?_ ih
    show (Flow.state (if _ then _ else _)).port .pl = _
    split
    · refine Eq.trans ?_ ht
      have hports := ports_disableGen g t
      split at hports
      · exact port_of_ports hports _
      · exact (port_of_ports hports _).trans (port_pl_discardPartial t g)
    · split
      · exact (port_of_ports (portsKept_enableGen g t) _).trans ht
      · exact ht
  · refine (port_of_ports ?_ _).trans ht
    exact (PortsKept.doIf _ portsKept_evaluate t).andThen fun u => portsKept_settle u s

/-- No request but CHECK TEST, RESTART and ENABLE GENERATORS changes a port. -/
theorem ports_serve (k : ReqKind) (hc : k ≠ .checkTest) (hr : k ≠ .restart) (he : k ≠ .enableGenerators) (l : Link)
    (body : List Byte) (s : State) : (serve k l body s).1.ports = s.ports := by
  cases k
  case checkTest => exact absurd rfl hc
  case restart => exact absurd rfl hr
  case enableGenerators => exact absurd rfl he
  case status => rfl
  case setLevel =>
    simp only [serve, serveSetLevel, serveSlot]
    repeat' split
    all_goals first | rfl | exact portsKept_setLevel _ _ s
  case setTimer =>
    simp only [serve, serveSetTimer, serveSlot]
    repeat' split
    all_goals first
      | rfl
      | exact (portsKept_rewritePan s _ _).andThen fun t =>
          PortsKept.after (t := t.setPartSecond _ 0) rfl ((portsKept_completeIfDue _ _).andThen fun u => portsKept_settle u s)
  case hold =>
    simp only [serve, serveHold]
    repeat' split
    all_goals first | rfl | exact (portsKept_holdFrom _ [] s).andThen fun t => portsKept_settle t s
  case resume =>
    simp only [serve, serveResume]
    repeat' split
    all_goals first
      | rfl
      | exact (PortsKept.forEach (fun n s => portsKept_editPan s n _) _ s).andThen fun t => portsKept_settle (t.raiseAll _) s
  case stopAll =>
    simp only [serve, serveStopAll]
    split
    · rfl
    · exact portsKept_stopAll s
  case setWindow =>
    simp only [serve, serveSetWindow]
    repeat' split
    all_goals first | rfl | exact portsKept_reportAll (s.setWindow _ _) _
  case permit =>
    simp only [serve, servePermit]
    repeat' split
    all_goals first | rfl | exact portsKept_settle { s with permit := _ } s
  case readEvents =>
    simp only [serve, serveReadEvents]
    repeat' split
    all_goals rfl
  case readPans =>
    simp only [serve, serveReadPans]
    split
    · rfl
    · rw [snapshot_fst]
      exact (Run.forEach (w := .orders) (D := fun _ => True) (fun n s => run_checkPan n s) _ s).portsKept (by decide)
  case readMap =>
    simp only [serve, serveReadMap]
    split
    · rfl
    · rw [snapshot_fst]
      exact PortsKept.forEach (fun c s => portsKept_checkCoil s c) _ s
  case configure => exact ports_configure body s
  case hello =>
    have hh := portsKept_hello (linkGen l) s
    simp only [serve, serveHello]
    split
    · rfl
    · split
      · rfl
      · split
        all_goals next ht => rw [ht] at hh; exact hh
  case sweep =>
    simp only [serve, serveSweep]
    repeat' split
    all_goals first | rfl | exact portsKept_sweep _ _ s
  case fetch =>
    simp only [serve, serveFetch]
    repeat' split
    all_goals first | rfl | exact ports_fetch _ _ s
  case setCap =>
    simp only [serve, serveSetCap, setCap]
    repeat' split
    all_goals first | rfl | exact portsKept_moveTarget _ _ _ s
  case shed =>
    simp only [serve, serveShed, shedTo]
    repeat' split
    all_goals first | rfl | exact portsKept_moveTarget _ _ _ s
  case readLoad =>
    simp only [serve, serveReadLoad]
    split <;> rfl

/-- Every request but CHECK TEST and RESTART leaves PL's port and every mark as it is. -/
theorem port_serve (k : ReqKind) (hc : k ≠ .checkTest) (hr : k ≠ .restart) (l : Link) (body : List Byte) (s : State) :
    (serve k l body s).1.port .pl = s.port .pl ∧
      ∀ m, ((serve k l body s).1.port m).forcedBad = (s.port m).forcedBad := by
  by_cases he : k = .enableGenerators
  · subst he
    simp only [serve, serveEnable]
    repeat' split
    all_goals first
      | exact ⟨rfl, fun _ => rfl⟩
      | exact ⟨port_pl_enableGens _ _ s, fun m => ((run_enableGens _ _ s).port m).2⟩
  · have hp := port_of_ports (ports_serve k hc hr he l body s)
    exact ⟨hp .pl, fun m => by rw [hp m]⟩

/-! ## The mark at the reply begun next -/

/-- The command's reply is begun on the link, spoiled by the link's mark unless PL is still sending the DONE of a CHECK TEST
that names the link. -/
def FiresAt (s : State) (l : Link) (c : Instr) : Prop := ∃ t, exec c s = .next t ∧
  (¬ s.TestUnsent l → Sends (s.port l).forcedBad l t ∧ (t.port l).forcedBad = false) ∧
  (s.TestUnsent l → Sends false l t ∧ (t.port l).forcedBad = (s.port l).forcedBad)

/-- A reply to a message that is no CHECK TEST on PL, begun where PL's port and the link's mark are as before. -/
theorem firesAt_of_reply {s u : State} {l : Link} {c : Instr} {m : Option Message} {causes : Causes} {a : Answer}
    (hc : exec c s = .next (u.reply l m causes a)) (hpl : u.port .pl = s.port .pl)
    (hl : (u.port l).forcedBad = (s.port l).forcedBad) (hm : ownTest l m = false) : FiresAt s l c := by
  obtain ⟨hsend, hmark⟩ := sends_reply u l m causes a
  have hunsent : u.testReplyUnsent l = s.testReplyUnsent l := by simp only [State.testReplyUnsent, hpl]
  have hfires : u.markFires l m = ((s.port l).forcedBad && !s.testReplyUnsent l) := by
    rw [State.markFires, hm, hl, hunsent]
    simp
  rw [hfires] at hsend hmark
  rw [hl] at hmark
  refine ⟨_, hc, fun h => ?_, fun h => ?_⟩
  · rw [← testReplyUnsent_iff, Bool.not_eq_true] at h
    simp only [h, Bool.not_false, Bool.and_true] at hsend hmark
    exact ⟨hsend, by rw [hmark]; cases (s.port l).forcedBad <;> rfl⟩
  · rw [← testReplyUnsent_iff] at h
    simp only [h, Bool.not_true, Bool.and_false, Bool.not_false, Bool.and_true] at hsend hmark
    exact ⟨hsend, hmark⟩

/-- What a message on a link is answered begins a reply where PL's port and the link's mark are as before. -/
theorem port_route {k : ReqKind} {l : Link} (hc : k = .checkTest → l ≠ .pl) (hr : k ≠ .restart) (body : List Byte) (s : State) :
    (route l ⟨k.code, body⟩ s).1.port .pl = s.port .pl ∧
      ((route l ⟨k.code, body⟩ s).1.port l).forcedBad = (s.port l).forcedBad := by
  rw [route, ofCode_code]
  simp only
  split
  · exact ⟨rfl, rfl⟩
  · next ha =>
    split
    · exact ⟨rfl, rfl⟩
    · have hk : k ≠ .checkTest := by
        rintro rfl
        cases l <;> simp [kindAllowed] at ha hc
      exact (port_serve k hk hr l body s).imp id fun h => h l

theorem ownTest_request {k : ReqKind} {l : Link} (hc : k = .checkTest → l ≠ .pl) (body : List Byte) :
    ownTest l (some ⟨k.code, body⟩) = false := by
  rw [ownTest, decide_eq_false_iff_not]
  rintro ⟨hl, hk⟩
  change k.code = ReqKind.checkTest.code at hk
  have : some k = some .checkTest := by rw [← ofCode_code k, hk, ofCode_code]
  exact hc (Option.some.inj this) hl

theorem ownTest_unknown {kind : Byte} (h : ∀ k : ReqKind, k.code ≠ kind) (l : Link) (body : List Byte) :
    ownTest l (some ⟨kind, body⟩) = false := by
  rw [ownTest, decide_eq_false_iff_not]
  exact fun hk => h .checkTest hk.2.symm

/-! ## CHECK TEST's own reply, and RESTART's -/

/-- A taken message on PL: what its own rule answers, begun as a reply. -/
theorem exec_checkTest {s : State} {body : List Byte} (h : s.Listens .pl) (hb : bodyFits body = true) :
    exec (.checkTest .pl body) s = .next ((serveCheckTest body s).1.reply .pl (some ⟨ReqKind.checkTest.code, body⟩) Causes.none
      (serveCheckTest body s).2) :=
  exec_served (k := .checkTest) h hb rfl nofun

/-- The reply of a CHECK TEST on PL carries the correct CHECK and leaves the mark of PL as its rule left it. -/
theorem checkTest_reply (u : State) (body : List Byte) (a : Answer) :
    let t := u.reply .pl (some ⟨ReqKind.checkTest.code, body⟩) Causes.none a
    Sends false .pl t ∧ ∀ l, (t.port l).forcedBad = (u.port l).forcedBad := by
  obtain ⟨hsend, hmark⟩ := sends_reply u .pl (some ⟨ReqKind.checkTest.code, body⟩) Causes.none a
  have hfires : u.markFires .pl (some ⟨ReqKind.checkTest.code, body⟩) = false := by simp [State.markFires, ownTest]
  rw [hfires] at hsend hmark
  refine ⟨hsend, fun l => ?_⟩
  by_cases hl : l = .pl
  · subst hl
    rw [hmark, Bool.not_false, Bool.and_true]
  · rw [(answered_reply u .pl _ _ _).others l hl]

theorem targetFrom_eq_none {b : Byte} (h : 9 < b.toNat) : targetFrom b = none := by
  unfold targetFrom
  split <;> first | rfl | omega

theorem serveCheckTest_range {body : List Byte} {s : State} (hs : s.safe = false) (h : ∀ b : Byte, body = [b] → 9 < b.toNat) :
    serveCheckTest body s = (s, .refused .outOfRange) := by
  match body with
  | [] => simp [serveCheckTest, hs]
  | [b] => simp [serveCheckTest, hs, targetFrom_eq_none (h b rfl)]
  | _ :: _ :: _ => simp [serveCheckTest, hs]

theorem anyCharge_iff (s : State) : s.anyCharge = true ↔ ∃ g, s.charge g ≠ 0 := by
  simp [State.anyCharge, allGens]

theorem serveCheckTest_charged {body : List Byte} {s : State} (h : ∃ g, s.charge g ≠ 0) : (serveCheckTest body s).1 = s := by
  unfold serveCheckTest
  repeat' split
  all_goals first
    | rfl
    | (next hn => exact absurd ((anyCharge_iff s).mpr h) hn)

theorem forcedBad_restart (s : State) (l : Link) : ((restart s).port l).forcedBad = false := by
  unfold restart
  generalize allGens.foldl restartGen s.unchecked = u
  simp [State.port]

/-- Settles O15: a reply looks at the mark its link had before the request, but for CHECK TEST's own and RESTART's. -/
theorem armedLinkSpoilsTheNextReply : Obligations.ArmedLinkSpoilsTheNextReply := by
  unfold Obligations.ArmedLinkSpoilsTheNextReply
  refine ⟨fun s l hr => ⟨fun hx => ⟨fun k body hb hc hk => ?_, fun kind body hb hk => ?_, fun causes ha => ?_⟩,
    fun bytes noted hx => ?_⟩, fun s body hl hb => ⟨⟨_, exec_checkTest hl hb, (checkTest_reply _ _ _).1⟩, fun h => ?_, ?_⟩⟩
  · obtain ⟨hpl, hmark⟩ := port_route hc hk body s
    exact firesAt_of_reply (exec_taken ⟨hr, hx⟩ hb k) hpl hmark (ownTest_request hc body)
  · have hroute : (route l ⟨kind, body⟩ s).1 = s := by rw [route_unknown hk]
    exact firesAt_of_reply (exec_unknownKind ⟨hr, hx⟩ hb kind) (by rw [hroute]) (by rw [hroute]) (ownTest_unknown hk l body)
  · exact firesAt_of_reply (exec_badFrame_idle hr ha hx) rfl rfl rfl
  · exact firesAt_of_reply (exec_gapTimeout_passed hr hx) rfl rfl rfl
  · refine ⟨_, exec_checkTest hl hb, ?_⟩
    rw [(checkTest_reply _ _ _).2 .pl]
    have hsame : (serveCheckTest body s).1 = s := by
      by_cases hs : s.safe = true
      · simp [serveCheckTest, hs]
      · rcases h with h | h | h
        · exact absurd h hs
        · rw [serveCheckTest_range (by simpa using hs) h]
        · exact serveCheckTest_charged h
    rw [hsame]
  · refine ⟨_, exec_served (k := .restart) hl rfl rfl fun _ => rfl, ?_⟩
    change Sends false .pl ((restart s).reply .pl _ _ _) ∧ ∀ l, (((restart s).reply .pl _ _ _).port l).forcedBad = false
    have hclear := forcedBad_restart s
    generalize restart s = u at hclear ⊢
    obtain ⟨hsend, hmark⟩ := sends_reply u .pl (some ⟨ReqKind.restart.code, []⟩) Causes.none (serve .restart .pl [] s).2
    have hfires : u.markFires .pl (some ⟨ReqKind.restart.code, []⟩) = false := by
      simp [State.markFires, hclear]
    rw [hfires] at hsend hmark
    refine ⟨hsend, fun l => ?_⟩
    by_cases h : l = .pl
    · subst h
      rw [hclear] at hmark
      exact hmark
    · rw [(answered_reply u .pl _ _ _).others l h, hclear]

end Sys2Proof.Machine

/-! PROOFS. The refusals of each kind's own rule (R88 to R93, R103, R111, R112, R142 to R146, R156, R162), and the reading of a body. -/

namespace Sys2Proof.Machine

/-! ## Reading a body -/

theorem below_eq_none {n : Nat} {b : Byte} (h : n ≤ b.toNat) : below n b = none := dif_neg (by omega)

theorem below_eq_some {n : Nat} {b : Byte} {i : Fin n} (h : b.toNat = i.val) : below n b = some i := by
  unfold below
  rw [dif_pos (by omega)]
  exact congrArg some (Fin.ext h)

theorem below_byteOf {n : Nat} (hn : n ≤ 256) (i : Fin n) : below n (byteOf i.val) = some i :=
  below_eq_some (toNat_byteOf (by omega))

theorem phaseFrom_eq_none {b : Byte} (h : b ≠ 1 ∧ b ≠ 2) : phaseFrom b = none :=
  (if_neg h.1).trans (if_neg h.2)

theorem phaseFrom_phaseCode (p : Phase) : phaseFrom (phaseCode p) = some p := by cases p <;> rfl

theorem capFrom_eq_none {lo hi : Byte} (h : 7400 < wordFrom lo hi ∨ wordFrom lo hi % 10 ≠ 0) : capFrom lo hi = none :=
  if_neg (by simp only [Config.maxCap]; omega)

theorem capFrom_eq_some {lo hi : Byte} (h : wordFrom lo hi ≤ 7400) (h10 : wordFrom lo hi % 10 = 0) :
    capFrom lo hi = some (wordFrom lo hi) := if_pos ⟨h, h10⟩

theorem deadlineFrom_eq_none {lo hi : Byte} (h : wordFrom lo hi < 100 ∨ 10000 < wordFrom lo hi) : deadlineFrom lo hi = none :=
  if_neg (by omega)

theorem deadlineFrom_eq_some {lo hi : Byte} (h : 100 ≤ wordFrom lo hi) (h' : wordFrom lo hi ≤ 10000) :
    deadlineFrom lo hi = some (wordFrom lo hi) := if_pos ⟨h, h'⟩

/-- Three bytes out of range spell no SWEEP entry. -/
theorem entryFrom_eq_none {a b c : Byte} (h : 47 < a.toNat ∨ 15 < b.toNat ∨ c.toNat % 4 = 3) : entryFrom a b c = none := by
  rcases h with h | h | h
  · simp [entryFrom, below_eq_none (n := 48) h]
  · cases h48 : below 48 a <;> simp [entryFrom, h48, below_eq_none (n := 16) h]
  · have ht : tempFrom c = none := by simp [tempFrom, h]
    cases h48 : below 48 a <;> cases h16 : below 16 b <;> simp [entryFrom, h48, h16, ht]

/-- One bad entry, whole entries before it, spoils the list. -/
theorem entriesFrom_eq_none {a b c : Byte} (h : entryFrom a b c = none) (back : List Byte) :
    ∀ front : List Byte, front.length % 3 = 0 → entriesFrom (front ++ a :: b :: c :: back) = none
  | [], _ => by simp [entriesFrom, h]
  | [_], hl => by simp at hl
  | [_, _], hl => by simp at hl
  | x :: y :: z :: rest, hl => by
    have ih := entriesFrom_eq_none h back rest (by simp only [List.length_cons] at hl; omega)
    simp only [List.cons_append, entriesFrom, ih]
    cases entryFrom x y z <;> rfl

theorem sweepFrom_eq_none {body : List Byte} (h : body = [] ∨
    (∃ n rest, body = n :: rest ∧ (n.toNat = 0 ∨ 24 < n.toNat ∨ rest.length ≠ 3 * n.toNat)) ∨
    ∃ n front a b c back, body = n :: (front ++ a :: b :: c :: back) ∧ front.length % 3 = 0 ∧
      (47 < a.toNat ∨ 15 < b.toNat ∨ c.toNat % 4 = 3)) : sweepFrom body = none := by
  rcases h with rfl | ⟨n, rest, rfl, h⟩ | ⟨n, front, a, b, c, back, rfl, hl, h⟩
  · rfl
  · exact if_neg (by omega)
  · simp only [sweepFrom, entriesFrom_eq_none (entryFrom_eq_none h) back front hl, ite_self]

/-! ## Refusals out of range -/

section
variable {s : State} (hs : s.safe = false) {body : List Byte}
include hs

theorem serve_setLevel_length (h : body.length ≠ 3) (l : Link) : serve .setLevel l body s = (s, .refused .outOfRange) := by
  simp only [serve, serveSetLevel, hs, Bool.false_eq_true, if_false]
  split
  · exact absurd rfl h
  · rfl

theorem serve_setTimer_length (h : body.length ≠ 5) (l : Link) : serve .setTimer l body s = (s, .refused .outOfRange) := by
  simp only [serve, serveSetTimer, hs, Bool.false_eq_true, if_false]
  split
  · exact absurd rfl h
  · rfl

theorem serve_hold_length (h : body.length ≠ 1) (l : Link) : serve .hold l body s = (s, .refused .outOfRange) := by
  simp only [serve, serveHold, hs, Bool.false_eq_true, if_false]
  split
  · exact absurd rfl h
  · rfl

theorem serve_resume_length (h : body.length ≠ 1) (l : Link) : serve .resume l body s = (s, .refused .outOfRange) := by
  simp only [serve, serveResume, hs, Bool.false_eq_true, if_false]
  split
  · exact absurd rfl h
  · rfl

theorem serve_permit_length (h : body.length ≠ 1) (l : Link) : serve .permit l body s = (s, .refused .outOfRange) := by
  simp only [serve, servePermit, hs, Bool.false_eq_true, if_false]
  split
  · exact absurd rfl h
  · rfl

theorem serve_setWindow_length (h : body.length ≠ 7) (l : Link) : serve .setWindow l body s = (s, .refused .outOfRange) := by
  simp only [serve, serveSetWindow, hs, Bool.false_eq_true, if_false]
  split
  · exact absurd rfl h
  · rfl

theorem serve_enable_length (h : body.length ≠ 2) (l : Link) :
    serve .enableGenerators l body s = (s, .refused .outOfRange) := by
  simp only [serve, serveEnable, hs, Bool.false_eq_true, if_false]
  split
  · exact absurd rfl h
  · rfl

theorem serve_setCap_length (h : body.length ≠ 3) (l : Link) : serve .setCap l body s = (s, .refused .outOfRange) := by
  simp only [serve, serveSetCap, hs, Bool.false_eq_true, if_false]
  split
  · exact absurd rfl h
  · rfl

theorem serve_shed_length (h : body.length ≠ 5) (l : Link) : serve .shed l body s = (s, .refused .outOfRange) := by
  simp only [serve, serveShed, hs, Bool.false_eq_true, if_false]
  split
  · exact absurd rfl h
  · rfl

theorem serve_setLevel_range {a b c : Byte} (h : 7 < a.toNat ∨ 15 < b.toNat ∨ 13 < c.toNat) (l : Link) :
    serve .setLevel l [a, b, c] s = (s, .refused .outOfRange) := by
  simp only [serve, serveSetLevel, hs, Bool.false_eq_true, if_false]
  rcases h with h | h | h
  · simp [below_eq_none (n := 8) h]
  · cases below 8 a <;> simp [below_eq_none (n := 16) h]
  · cases below 8 a <;> cases below 16 b <;> simp [below_eq_none (n := 14) h]

theorem serve_setTimer_range {a b lo hi x : Byte} (h : 7 < a.toNat ∨ 15 < b.toNat) (l : Link) :
    serve .setTimer l [a, b, lo, hi, x] s = (s, .refused .outOfRange) := by
  simp only [serve, serveSetTimer, hs, Bool.false_eq_true, if_false]
  rcases h with h | h
  · simp [below_eq_none (n := 8) h]
  · cases below 8 a <;> simp [below_eq_none (n := 16) h]

theorem serve_permit_range {p : Byte} (h : p.toNat = 0 ∨ 60 < p.toNat) (l : Link) :
    serve .permit l [p] s = (s, .refused .outOfRange) := by
  simp only [serve, servePermit, hs, Bool.false_eq_true, if_false]
  exact if_neg (by omega)

theorem serve_enable_range {e d : Byte} (h : 16 ≤ e.toNat ∨ 16 ≤ d.toNat ∨ e &&& d ≠ 0) (l : Link) :
    serve .enableGenerators l [e, d] s = (s, .refused .outOfRange) := by
  simp only [serve, serveEnable, hs, Bool.false_eq_true, if_false]
  exact if_pos h

theorem serve_setCap_range {a lo hi : Byte} (h : (a ≠ 1 ∧ a ≠ 2) ∨ 7400 < wordFrom lo hi ∨ wordFrom lo hi % 10 ≠ 0) (l : Link) :
    serve .setCap l [a, lo, hi] s = (s, .refused .outOfRange) := by
  simp only [serve, serveSetCap, hs, Bool.false_eq_true, if_false]
  rcases h with h | h
  · simp [phaseFrom_eq_none h]
  · cases phaseFrom a <;> simp [capFrom_eq_none h]

theorem serve_shed_range {a lo hi dlo dhi : Byte} (h : ((a ≠ 1 ∧ a ≠ 2) ∨ 7400 < wordFrom lo hi ∨ wordFrom lo hi % 10 ≠ 0) ∨
    wordFrom dlo dhi < 100 ∨ 10000 < wordFrom dlo dhi) (l : Link) :
    serve .shed l [a, lo, hi, dlo, dhi] s = (s, .refused .outOfRange) := by
  simp only [serve, serveShed, hs, Bool.false_eq_true, if_false]
  rcases h with (h | h) | h
  · simp [phaseFrom_eq_none h]
  · cases phaseFrom a <;> simp [capFrom_eq_none h]
  · cases phaseFrom a <;> cases capFrom lo hi <;> simp [deadlineFrom_eq_none h]

/-! ## Requests on one slot -/

theorem serve_setLevel_slot (n : Slot) (t : Tag) (level : Fin 14) (l : Link) :
    serve .setLevel l [byteOf n.val, byteOf t.val, byteOf level.val] s = serveSlot n t (setLevel n level) s := by
  simp only [serve, serveSetLevel, hs, Bool.false_eq_true, if_false, below_byteOf (show 8 ≤ 256 by omega) n,
    below_byteOf (show 16 ≤ 256 by omega) t, below_byteOf (show 14 ≤ 256 by omega) level]

theorem serve_setTimer_slot (n : Slot) (t : Tag) (lo hi x : Byte) (l : Link) :
    serve .setTimer l [byteOf n.val, byteOf t.val, lo, hi, x] s =
      serveSlot n t (setTimer n (timerFrom lo hi) (x.getLsbD 0) (x.getLsbD 1)) s := by
  simp only [serve, serveSetTimer, hs, Bool.false_eq_true, if_false, below_byteOf (show 8 ≤ 256 by omega) n,
    below_byteOf (show 16 ≤ 256 by omega) t]

omit hs in
theorem serveSlot_free {n : Slot} (h : (s.pan n).state = .free) (t : Tag) (work : Op) :
    serveSlot n t work s = (s, .refused .noPan) := if_pos h

omit hs in
theorem serveSlot_stale {n : Slot} (h : (s.pan n).state ≠ .free) {t : Tag} (ht : (s.pan n).tag ≠ t) (work : Op) :
    serveSlot n t work s = (s, .refused .stale) := (if_neg h).trans (if_pos ht)

omit hs in
theorem serveSlot_taken {n : Slot} (h : (s.pan n).state ≠ .free) (work : Op) :
    serveSlot n (s.pan n).tag work s = ((work s).state, .done ((work s).state.slotFields n)) :=
  (if_neg h).trans (if_neg (not_not.mpr rfl))

/-! ## Requests of a generator -/

variable {g : Gen}

theorem serve_hello_disabled (h : (s.desk g).state = .disabled) (body : List Byte) :
    serve .hello (.gl g) body s = (s, .refused .disabled) := by
  simp [serve, serveHello, linkGen, hs, h]

theorem serve_sweep_disabled (h : (s.desk g).state = .disabled) (body : List Byte) :
    serve .sweep (.gl g) body s = (s, .refused .disabled) := by
  simp [serve, serveSweep, linkGen, hs, h]

theorem serve_sweep_absent (h : (s.desk g).state = .absent) (body : List Byte) :
    serve .sweep (.gl g) body s = (s, .refused .notJoined) := by
  simp [serve, serveSweep, linkGen, hs, h]

theorem serve_sweep_range (hd : (s.desk g).state ≠ .disabled) (ha : (s.desk g).state ≠ .absent) (h : sweepFrom body = none) :
    serve .sweep (.gl g) body s = (s, .refused .outOfRange) := by
  simp [serve, serveSweep, linkGen, hs, hd, ha, h]

theorem serve_fetch_disabled (h : (s.desk g).state = .disabled) (body : List Byte) :
    serve .fetch (.gl g) body s = (s, .refused .disabled) := by
  simp [serve, serveFetch, linkGen, hs, h]

theorem serve_fetch_absent (h : (s.desk g).state = .absent) (body : List Byte) :
    serve .fetch (.gl g) body s = (s, .refused .notJoined) := by
  simp [serve, serveFetch, linkGen, hs, h]

theorem serve_fetch_stopped (h : (s.desk g).state = .stopped) (body : List Byte) :
    serve .fetch (.gl g) body s = (s, .refused .stopped) := by
  simp [serve, serveFetch, linkGen, hs, h]

theorem serve_fetch_length (h : (s.desk g).state.inService = true) (hb : body.length ≠ 1) :
    serve .fetch (.gl g) body s = (s, .refused .outOfRange) := by
  match body, hb with
  | [], _ => cases hd : (s.desk g).state <;> simp [hd, GenState.inService] at h <;> simp [serve, serveFetch, linkGen, hs, hd]
  | _ :: _ :: _, _ =>
    cases hd : (s.desk g).state <;> simp [hd, GenState.inService] at h <;> simp [serve, serveFetch, linkGen, hs, hd]

theorem serve_fetch (h : (s.desk g).state.inService = true) (n : Byte) : serve .fetch (.gl g) [n] s = fetch g n s := by
  cases hd : (s.desk g).state <;> simp [hd, GenState.inService] at h <;> simp [serve, serveFetch, linkGen, hs, hd]

end

theorem fetch_unnamed {s : State} {g : Gen} {n : Byte} (hi : s.issuedOrder g = none) (h0 : n ≠ 0)
    (hn : n ≠ (s.desk g).lastConfirmed) : fetch g n s = (s, .refused .orderMismatch) := by
  simp only [fetch, hi]
  exact if_neg (not_or.mpr ⟨h0, hn⟩)

theorem fetch_delivers {s : State} {g : Gen} {n : Byte} (hi : s.issuedOrder g = none)
    (hn : n = 0 ∨ n = (s.desk g).lastConfirmed) : fetch g n s = delivery g n s := by
  simp only [fetch, hi]
  exact if_pos hn

/-! ## The statement -/

/-- Settles O34: each refusal is the one its kind's rule answers. -/
theorem requestsAreRefused : Obligations.RequestsAreRefused := by
  unfold Obligations.RequestsAreRefused
  intro s g body hs hb
  refine ⟨fun hl => ⟨?_, ?_, ?_, ?_, ?_, ?_, ?_, ?_, ?_, ?_⟩, fun hl => ⟨?_, ?_, ?_, ?_⟩, fun hl => ⟨?_, ?_, ?_, ?_, ?_⟩⟩
  · exact fun a b c h => refuses_of_serve (k := .setLevel) hl rfl rfl nofun (serve_setLevel_range hs h _)
  · exact fun h => refuses_of_serve (k := .setLevel) hl hb rfl nofun (serve_setLevel_length hs h _)
  · exact fun a b lo hi x h => refuses_of_serve (k := .setTimer) hl rfl rfl nofun (serve_setTimer_range hs h _)
  · exact fun h => refuses_of_serve (k := .setTimer) hl hb rfl nofun (serve_setTimer_length hs h _)
  · intro n tag level lo hi x
    refine ⟨fun h => ⟨?_, ?_⟩, fun h ht => ⟨?_, ?_⟩⟩
    · exact refuses_of_serve (k := .setLevel) hl rfl rfl nofun ((serve_setLevel_slot hs ..).trans (serveSlot_free h _ _))
    · exact refuses_of_serve (k := .setTimer) hl rfl rfl nofun ((serve_setTimer_slot hs ..).trans (serveSlot_free h _ _))
    · exact refuses_of_serve (k := .setLevel) hl rfl rfl nofun ((serve_setLevel_slot hs ..).trans (serveSlot_stale h ht _))
    · exact refuses_of_serve (k := .setTimer) hl rfl rfl nofun ((serve_setTimer_slot hs ..).trans (serveSlot_stale h ht _))
  · exact fun h => ⟨refuses_of_serve (k := .hold) hl hb rfl nofun (serve_hold_length hs h _),
      refuses_of_serve (k := .resume) hl hb rfl nofun (serve_resume_length hs h _),
      refuses_of_serve (k := .permit) hl hb rfl nofun (serve_permit_length hs h _)⟩
  · exact fun p h => refuses_of_serve (k := .permit) hl rfl rfl nofun (serve_permit_range hs h _)
  · exact fun h => refuses_of_serve (k := .setWindow) hl hb rfl nofun (serve_setWindow_length hs h _)
  · exact fun h => refuses_of_serve (k := .enableGenerators) hl hb rfl nofun (serve_enable_length hs h _)
  · exact fun e d h => refuses_of_serve (k := .enableGenerators) hl rfl rfl nofun (serve_enable_range hs h _)
  · exact fun a lo hi dlo dhi h => ⟨refuses_of_serve (k := .setCap) hl rfl rfl nofun (serve_setCap_range hs h _),
      refuses_of_serve (k := .shed) hl rfl rfl nofun (serve_shed_range hs (.inl h) _)⟩
  · exact fun a lo hi dlo dhi h => refuses_of_serve (k := .shed) hl rfl rfl nofun (serve_shed_range hs (.inr h) _)
  · exact fun h => refuses_of_serve (k := .setCap) hl hb rfl nofun (serve_setCap_length hs h _)
  · exact fun h => refuses_of_serve (k := .shed) hl hb rfl nofun (serve_shed_length hs h _)
  · exact fun h => ⟨refuses_of_serve (k := .hello) hl rfl rfl (fun _ => rfl) (serve_hello_disabled hs h _),
      refuses_of_serve (k := .sweep) hl hb rfl nofun (serve_sweep_disabled hs h _),
      refuses_of_serve (k := .fetch) hl hb rfl nofun (serve_fetch_disabled hs h _)⟩
  · exact fun h => ⟨refuses_of_serve (k := .sweep) hl hb rfl nofun (serve_sweep_absent hs h _),
      refuses_of_serve (k := .fetch) hl hb rfl nofun (serve_fetch_absent hs h _)⟩
  · exact fun h => refuses_of_serve (k := .fetch) hl hb rfl nofun (serve_fetch_stopped hs h _)
  · exact fun hd ha h => refuses_of_serve (k := .sweep) hl hb rfl nofun (serve_sweep_range hs hd ha (sweepFrom_eq_none h))
  · exact fun h => ⟨fun hlen => refuses_of_serve (k := .fetch) hl hb rfl nofun (serve_fetch_length hs h hlen),
      fun n hi h0 hn => refuses_of_serve (k := .fetch) hl rfl rfl nofun ((serve_fetch hs h n).trans (fetch_unnamed hi h0 hn))⟩

end Sys2Proof.Machine

/-! PROOFS. A FETCH that names no ISSUED order (R124, R143, R147, R148, R159), and the bytes of an order (R191). -/

namespace Sys2Proof.Machine

/-! ## Numbers in a byte -/

theorem toNat_panCode_false (n : Slot) (t : Tag) : (panCode false n t.val).toNat = t.val + 16 * n.val :=
  toNat_byteOf (by simp only [bitOf, Bool.false_eq_true, if_false]; omega)

theorem panCode_false_fields (n : Slot) (t : Tag) : (panCode false n t.val).toNat % 16 = t.val ∧
    (panCode false n t.val).toNat / 16 % 8 = n.val ∧ (panCode false n t.val).getLsbD 7 = false := by
  have h := toNat_panCode_false n t
  refine ⟨by omega, by omega, ?_⟩
  rw [BitVec.getLsbD, h, Nat.testBit_eq_decide_div_mod_eq, decide_eq_false_iff_not]
  omega

theorem Leg.syncByte_fields (l : Leg) : l.syncByte.getLsbD 0 = decide (l.inverter = .b) ∧
    (∀ i, 1 ≤ i → i ≤ 3 → l.syncByte.getLsbD i = false) ∧ l.syncByte.toNat / 16 % 8 = l.sync.val ∧
    l.syncByte.getLsbD 7 = l.split := by
  have hbits : ∀ (j : Fin 2) (k : Fin 8) (b : Bool), let x := byteOf (j.val + 16 * k.val + bitOf b 7)
      x.getLsbD 0 = decide (j = 1) ∧ (∀ i : Fin 4, 1 ≤ i.val → x.getLsbD i.val = false) ∧ x.toNat / 16 % 8 = k.val ∧
        x.getLsbD 7 = b := by decide
  obtain ⟨inverter, _, _, _, split, sync⟩ := l
  cases inverter with
  | a =>
    obtain ⟨h0, hi, hk, h7⟩ := hbits 0 sync split
    exact ⟨h0, fun i h1 h3 => hi ⟨i, by omega⟩ h1, hk, h7⟩
  | b =>
    obtain ⟨h0, hi, hk, h7⟩ := hbits 1 sync split
    exact ⟨h0, fun i h1 h3 => hi ⟨i, by omega⟩ h1, hk, h7⟩

/-! ## The wait test and the desk -/

theorem mem_allCoils (c : CoilNo) : c ∈ allCoils := List.mem_finRange c

theorem mem_allSlots (n : Slot) : n ∈ allSlots := List.mem_finRange n

theorem mem_allGens (g : Gen) : g ∈ allGens := List.mem_finRange g

theorem waitBlocked_iff (s : State) (g : Gen) : s.waitBlocked g = true ↔ ∃ (c : CoilNo) (p : PanId),
    ((∃ n d, (s.coil c).state = .transfer p n d ∧ driverAt c d = g) ∨
      ∃ left, (s.coil c).state = .switching (some p) left ∧ driverAt c (s.coil c).driver = g) ∧
    (s.pan p.slot).tag = p.tag ∧ s.heating p.slot = true := by
  have hcoil : ∀ c, (movingToward g c (s.coil c) &&
      match (s.coil c).state.owner with
      | some o => s.heatingOwner o
      | none => false) = true ↔ ∃ p : PanId,
        ((∃ n d, (s.coil c).state = .transfer p n d ∧ driverAt c d = g) ∨
          ∃ left, (s.coil c).state = .switching (some p) left ∧ driverAt c (s.coil c).driver = g) ∧
        (s.pan p.slot).tag = p.tag ∧ s.heating p.slot = true := by
    intro c
    cases hc : (s.coil c).state with
    | transfer p n d => simp [movingToward, hc, CoilState.owner, State.heatingOwner]
    | switching o left => cases o <;> simp [movingToward, hc, CoilState.owner, State.heatingOwner]
    | off _ => simp [movingToward, hc]
    | free => simp [movingToward, hc]
    | claimed _ => simp [movingToward, hc]
    | driven _ _ => simp [movingToward, hc]
    | releasing _ _ _ => simp [movingToward, hc]
  rw [State.waitBlocked, List.any_eq_true]
  exact ⟨fun ⟨c, _, h⟩ => ⟨c, (hcoil c).mp h⟩, fun ⟨c, h⟩ => ⟨c, mem_allCoils c, (hcoil c).mpr h⟩⟩

section
variable {s : State} {g : Gen} {n : Byte}

theorem delivery_complete {entry : Byte} (h : (s.desk g).desk = .complete entry) :
    delivery g n s = (deliver g s).delivered g := by simp [delivery, h]

theorem delivery_blocked (h : (s.desk g).desk = .empty) (hb : s.waitBlocked g = true) : delivery g n s = s.waitAt g n 1 := by
  simp [delivery, h, hb]

theorem delivery_builds (h : (s.desk g).desk = .empty) (hb : s.waitBlocked g = false) :
    delivery g n s = ((buildOrder g s).andThen (deliver g)).delivered g := by simp [delivery, h, hb]

theorem delivery_replaces {entry : Byte} (h : (s.desk g).desk = .waiting entry) (hn : n ≠ entry) :
    delivery g n s = s.waitAt g n 1 := by simp [delivery, h, Ne.symm hn]

theorem delivery_repeats (h : (s.desk g).desk = .waiting n) (hr : (s.desk g).repeats + 1 ≤ s.params.repeatLimit) :
    delivery g n s = s.waitAt g n ((s.desk g).repeats + 1) := by
  simp only [delivery, h, if_true]
  exact if_neg (by omega)

theorem delivery_starves (h : (s.desk g).desk = .waiting n) (hr : s.params.repeatLimit < (s.desk g).repeats + 1) :
    delivery g n s = s.starve g := by
  simp only [delivery, h, if_true]
  exact if_pos hr

/-- What a served FETCH that delivers answers is what its sender is answered. -/
theorem exec_fetch {u : State} {a : Answer} (hl : s.Listens (.gl g)) (hs : s.safe = false)
    (hd : (s.desk g).state.inService = true) (h : fetch g n s = (u, a)) :
    ∃ t, exec (.fetch (.gl g) [n]) s = .next t ∧ Answered (.gl g) a.kind a.fields u t :=
  exec_answered (k := .fetch) hl rfl rfl nofun ((serve_fetch hs hd n).trans h)

theorem waitAt_eq (entry : Byte) (repeats : Nat) : s.waitAt g entry repeats =
    (s.setDesk g { s.desk g with desk := .waiting entry, repeats := repeats },
      .wait [byteOf repeats, byteOf s.params.repeatLimit]) := by
  simp [State.waitAt, State.waitFields]

end

/-- Settles O39: the wait test coil by coil, and the branches of delivery that wait. -/
theorem fetchWaitsAndStarves : Obligations.FetchWaitsAndStarves := by
  unfold Obligations.FetchWaitsAndStarves
  refine ⟨waitBlocked_iff, fun s g n hl hs hd hi hn => ?_⟩
  have hserve {u a} (h : delivery g n s = (u, a)) := exec_fetch hl hs hd ((fetch_delivers hi hn).trans h)
  exact ⟨fun h hb => hserve ((delivery_blocked h hb).trans (waitAt_eq n 1)),
    fun entry h he => hserve ((delivery_replaces h he).trans (waitAt_eq n 1)),
    fun h hr => hserve ((delivery_repeats h hr).trans (waitAt_eq n _)),
    fun h hr => hserve (delivery_starves h hr)⟩

/-! ## Delivery -/

/-- The order as it is delivered, and the desk that holds it then (R147). -/
def Desk.issued (o : Order) (now lease : Nat) (d : Desk) : Desk :=
  { d with state := .ordered, desk := .empty, repeats := 0, order := some { o with state := .issued now },
           lease := some lease, collection := none }

theorem deliver_good {s : State} {g : Gen} {o : Order} (ho : (s.desk g).order = some o) (hc : o.codeOk = true) :
    deliver g s = .ok (s.setDesk g ((s.desk g).issued o s.now s.params.orderLease)) := by
  have hcheck : checkOrder g s = .ok s := by simp [checkOrder, ho, hc]
  rw [deliver, hcheck, Flow.ok_andThen]
  simp only [ho, Option.map_some, Desk.issued]

theorem deliver_bad {s : State} {g : Gen} {o : Order} (ho : (s.desk g).order = some o) (hc : o.codeOk = false) :
    deliver g s = .safe (enterSafe (.order g) s) := by
  rw [deliver, checkOrder_bad ho hc]
  rfl

/-- What the delivery of a held order is answered: its bytes. -/
theorem delivered_issued (s : State) (g : Gen) (o : Order) (now lease : Nat) :
    (Flow.ok (s.setDesk g ((s.desk g).issued o now lease))).delivered g =
      (s.setDesk g ((s.desk g).issued o now lease), .order o.bytes) := by
  simp [Flow.delivered, State.orderFields, Desk.issued, Order.bytes]

theorem State.Sound.orderCode {s : State} (hs : s.Sound) {g : Gen} {o : Order} (ho : (s.desk g).order = some o) :
    o.codeOk = true := by
  have h := hs.orders g
  rwa [Desk.orderOk, ho] at h

/-- Settles O37: the branches of delivery that build and deliver, each at its checks. -/
theorem fetchDelivers : Obligations.FetchDelivers := by
  unfold Obligations.FetchDelivers
  refine ⟨fun o => rfl, fun l => ⟨l.syncByte, panCode false l.pan.slot l.pan.tag.val, rfl, ?_⟩,
    fun s g n hl hs hd hi hn => ?_, fun s g n hl hsound hs hd hi hn => ?_⟩
  · obtain ⟨h0, h13, hk, h7⟩ := l.syncByte_fields
    exact ⟨h0, h13, hk, h7, panCode_false_fields l.pan.slot l.pan.tag⟩
  · have hserve {u a} (h : delivery g n s = (u, a)) := exec_fetch hl hs hd ((fetch_delivers hi hn).trans h)
    refine ⟨fun he hb => ⟨fun v hv => ⟨?_, hserve (a := .refused .safe) ?_⟩, fun s1 o hs1 ho hc => hserve (a := .refused .safe) ?_⟩,
      fun entry o hdesk ho hc => hserve (a := .refused .safe) ?_⟩
    · exact (run_buildOrder (w := .service) (D := fun _ => True) g s trivial).safe.1 v hv
    · rw [delivery_builds he hb, hv]
      rfl
    · rw [delivery_builds he hb, hs1, Flow.ok_andThen, deliver_bad ho hc]
      rfl
    · rw [delivery_complete hdesk, deliver_bad ho hc]
      rfl
  · have hserve {u a} (h : delivery g n s = (u, a)) := exec_fetch hl hs hd ((fetch_delivers hi hn).trans h)
    refine ⟨fun he hb => ?_, fun entry o hdesk ho => ?_⟩
    · obtain ⟨s1, hs1, hpath, hsound1⟩ := (run_buildOrder (w := .orders) (D := fun _ => True) g s trivial).completes hsound
      obtain ⟨_, o, _, _, hs1', ho, _, _⟩ := buildOrder_of_sound hsound g
      cases hs1.symm.trans hs1'
      have hdeliver := deliver_good ho (hsound1.orderCode ho)
      have hu := hpath.unmoved
      rw [hu.now, hu.params] at hdeliver
      obtain ⟨t, ht, ha⟩ := hserve (a := .order o.bytes) (by
        rw [delivery_builds he hb, hs1, Flow.ok_andThen, hdeliver, delivered_issued])
      exact ⟨s1, o, t, ht, hs1, ho, ha⟩
    · exact hserve (a := .order o.bytes) (by
        rw [delivery_complete hdesk, deliver_good ho (hsound.orderCode ho), delivered_issued]
        rfl)

end Sys2Proof.Machine

/-! PROOFS. The state that SAFE entry leaves, block by block (R166 to R168), and two states that post alike. -/

namespace Sys2Proof.Machine

/-! ## Posting reads the queue and the clock only -/

/-- The two states hold the same queue at the same time, so that they post alike. -/
structure SameQueue (s t : State) : Prop where
  now : t.now = s.now
  events : t.events = s.events
  lost : t.eventsLost = s.eventsLost

theorem SameQueue.refl (s : State) : SameQueue s s := ⟨rfl, rfl, rfl⟩

theorem SameQueue.symm {s t : State} (h : SameQueue s t) : SameQueue t s := ⟨h.now.symm, h.events.symm, h.lost.symm⟩

theorem SameQueue.trans {s t u : State} (h : SameQueue s t) (k : SameQueue t u) : SameQueue s u :=
  ⟨k.now.trans h.now, k.events.trans h.events, k.lost.trans h.lost⟩

/-- A posted event changes the queue and its LOST flag only. -/
theorem postEvent_eq (s : State) (e : Event) :
    s.postEvent e = { s with events := (s.postEvent e).events, eventsLost := (s.postEvent e).eventsLost } := by
  unfold State.postEvent
  repeat' split
  all_goals rfl

theorem SameQueue.postEvent {s t : State} (h : SameQueue s t) (e : Event) : SameQueue (s.postEvent e) (t.postEvent e) where
  now := by rw [State.now_postEvent, State.now_postEvent, h.now]
  events := by
    unfold State.postEvent
    rw [h.events]
    repeat' split
    all_goals simp [h.events]
  lost := by
    unfold State.postEvent
    rw [h.events]
    repeat' split
    all_goals simp [h.lost]

/-- Two folds of posts post alike when each step does. -/
theorem SameQueue.foldl {α : Type} {f k : State → α → State} (hstep : ∀ s t x, SameQueue s t → SameQueue (f s x) (k t x)) :
    ∀ (l : List α) {s t : State}, SameQueue s t → SameQueue (l.foldl f s) (l.foldl k t)
  | [], _, _, h => h
  | x :: xs, _, _, h => SameQueue.foldl hstep xs (hstep _ _ x h)

/-! ## The generators stopped at SAFE entry -/

/-- A desk after SAFE entry: a DISABLED generator's is left. -/
def Desk.safeStopped (d : Desk) : Desk := if d.state = .disabled then d else d.emptied .stopped

theorem Desk.safeStopped_safeStopped (d : Desk) : d.safeStopped.safeStopped = d.safeStopped := by
  unfold Desk.safeStopped
  by_cases h : d.state = .disabled
  · simp [h]
  · simp [h, Desk.emptied]

theorem desk_safeStop (s : State) (h g : Gen) :
    (safeStop s h).desk g = if g = h then (s.desk g).safeStopped else s.desk g := by
  unfold safeStop Desk.safeStopped
  by_cases hg : g = h
  · subst hg
    rw [if_pos rfl]
    split
    · rfl
    · simp [State.postStopped]
  · rw [if_neg hg]
    split
    · rfl
    · simp [State.postStopped, State.desk_setDesk, hg]

theorem desk_safeStops (g : Gen) : ∀ (l : List Gen) (s : State),
    (l.foldl safeStop s).desk g = if g ∈ l then (s.desk g).safeStopped else s.desk g
  | [], _ => rfl
  | h :: hs, s => by
    rw [List.foldl_cons, desk_safeStops g hs, desk_safeStop]
    by_cases hg : g = h
    · simp [hg, Desk.safeStopped_safeStopped]
    · simp [hg]

/-- The stops of SAFE entry post one GENERATOR STOPPED for each generator that is not DISABLED. -/
theorem sameQueue_safeStops : ∀ (l : List Gen), l.Nodup → ∀ {s t : State}, SameQueue t s →
    SameQueue ((l.filter fun g => decide ((s.desk g).state ≠ .disabled)).foldl (fun x g => x.postStopped g .safe) t)
      (l.foldl safeStop s)
  | [], _, _, _, h => h
  | g :: gs, hl, s, t, h => by
    obtain ⟨hg, hgs⟩ := List.nodup_cons.mp hl
    have hrest : (gs.filter fun k => decide ((s.desk k).state ≠ .disabled)) =
        gs.filter fun k => decide (((safeStop s g).desk k).state ≠ .disabled) :=
      List.filter_congr fun k hk => by
        rw [desk_safeStop, if_neg]
        rintro rfl
        exact hg hk
    by_cases hd : (s.desk g).state = .disabled
    · rw [List.filter_cons_of_neg (by simp [hd]), List.foldl_cons, hrest]
      have hstop : safeStop s g = s := if_pos hd
      rw [hstop]
      exact sameQueue_safeStops gs hgs h
    · rw [List.filter_cons_of_pos (by simp [hd]), List.foldl_cons, List.foldl_cons, hrest]
      refine sameQueue_safeStops gs hgs ?_
      rw [safeStop, if_neg hd, State.postStopped, State.postStopped, State.event, State.event, State.now_setDesk, h.now]
      exact SameQueue.postEvent (s := t) (t := s.setDesk g _) ⟨h.now, h.events, h.lost⟩ _

/-! ## The state it leaves -/

/-- What SAFE entry leaves alone. -/
structure KeptBySafe (s t : State) : Prop where
  rstLow : t.rstLow = s.rstLow
  rate : t.rate = s.rate
  now : t.now = s.now
  windows : t.windows = s.windows
  params : t.params = s.params
  phaseOf : t.phaseOf = s.phaseOf
  ports : t.ports = s.ports
  pending : t.pending = s.pending
  freeCount : t.freeCount = s.freeCount

/-- What stopping leaves alone. -/
theorem safeStopped_frame (b : BadRecord) (s : State) : safeStopped b s = { s with
    safe := true
    desks := (safeStopped b s).desks
    events := (safeStopped b s).events
    eventsLost := (safeStopped b s).eventsLost } := by
  refine safeStopped_induction (P := fun t => t = { s with
    safe := true, desks := t.desks, events := t.events, eventsLost := t.eventsLost }) ?_ fun t ht g => ?_
  · rw [State.postSafe, postEvent_eq]
  · unfold safeStop
    split
    · exact ht
    · rw [State.postStopped, postEvent_eq]
      exact ht ▸ rfl

theorem desk_safeStopped (b : BadRecord) (s : State) (g : Gen) : (safeStopped b s).desk g = (s.desk g).safeStopped := by
  rw [safeStopped, desk_safeStops, if_pos (mem_allGens g), State.postSafe]
  simp only [State.desk, State.desks_postEvent]

section
variable (b : BadRecord) (s : State)

theorem enterSafe_frame : KeptBySafe s (enterSafe b s) := by
  rw [enterSafe_eq, safeStopped_frame]
  generalize safeStopped b s = u
  exact ⟨rfl, rfl, rfl, rfl, rfl, rfl, rfl, rfl, rfl⟩

theorem desk_enterSafe (g : Gen) : (enterSafe b s).desk g = (s.desk g).safeStopped := by
  rw [← desk_safeStopped b s g, enterSafe_eq]
  generalize safeStopped b s = u
  rfl

theorem pan_enterSafe (n : Slot) : (enterSafe b s).pan n = Pan.freed (s.pan n).tag := by
  rw [enterSafe_eq, safeStopped_frame]
  generalize safeStopped b s = u
  simp [State.pan, State.cleared]

theorem partSecond_enterSafe (n : Slot) : (enterSafe b s).partSecond n = 0 := by
  rw [enterSafe_eq]
  generalize safeStopped b s = u
  simp [State.partSecond, State.cleared]

theorem account_enterSafe (p : Phase) : (enterSafe b s).account p = (s.account p).settled := by
  rw [enterSafe_eq, safeStopped_frame]
  generalize safeStopped b s = u
  simp [State.account, State.cleared]

theorem alloc_enterSafe (g : Gen) : (enterSafe b s).alloc g = ⟨(s.alloc g).lastNumber, []⟩ := by
  rw [enterSafe_eq, safeStopped_frame]
  generalize safeStopped b s = u
  simp [State.alloc, State.cleared]

theorem lists_enterSafe : (enterSafe b s).candidates = [] ∧ (enterSafe b s).priority = [] ∧ (enterSafe b s).permit = .unset ∧
    (enterSafe b s).levels = ⟨s.levels.watts, true⟩ ∧ (enterSafe b s).marks = TableMarks.clear := by
  rw [enterSafe_eq, safeStopped_frame]
  generalize safeStopped b s = u
  exact ⟨rfl, rfl, rfl, rfl, rfl⟩

theorem queue_enterSafe : (enterSafe b s).events = (safeStopped b s).events ∧
    (enterSafe b s).eventsLost = (safeStopped b s).eventsLost := by
  rw [enterSafe_eq]
  generalize safeStopped b s = u
  exact ⟨rfl, rfl⟩

end

theorem nodup_allGens : allGens.Nodup := List.nodup_finRange 4

/-- A coil commanded to rest has the switch remaining that its relay needs. -/
theorem restRemaining_eq (r : Coil) : r.restRemaining = returnLeft r := by
  obtain ⟨driver, _, _, _, state, _⟩ := r
  cases driver <;> cases state <;> rfl

/-- Settles O25: SAFE entry, one block after another. -/
theorem safeEntryLeaves : Obligations.SafeEntryLeaves := by
  unfold Obligations.SafeEntryLeaves
  intro b s
  have hframe := enterSafe_frame b s
  have hlists := lists_enterSafe b s
  have hqueue := queue_enterSafe b s
  have hsafe := enterSafe_safe b s
  have hcoil := coil_enterSafe b s
  have hpan := pan_enterSafe b s
  have hsecond := partSecond_enterSafe b s
  have haccount := account_enterSafe b s
  have hdesk := desk_enterSafe b s
  have halloc := alloc_enterSafe b s
  generalize enterSafe b s = u at hframe hlists hqueue hsafe hcoil hpan hsecond haccount hdesk halloc ⊢
  obtain ⟨hcandidates, hpriority, hpermit, hlevels, hmarks⟩ := hlists
  obtain ⟨hevents, hlost⟩ := hqueue
  intro t named posted
  have hposted : SameQueue posted (safeStopped b s) := by
    have hfirst : SameQueue (s.postEvent ⟨.safeEntered, s.now % 65536, named.1, named.2.1, named.2.2.1, some (.table named.2.2.2)⟩)
        (({ s with safe := true } : State).postSafe b) := by
      have hsafe : SameQueue s { s with safe := true } := ⟨rfl, rfl, rfl⟩
      cases b <;> exact hsafe.postEvent _
    have hdesks : (({ s with safe := true } : State).postSafe b).desks = s.desks := State.desks_postEvent _ _
    have h := sameQueue_safeStops allGens nodup_allGens hfirst
    simp only [State.desk, hdesks] at h
    exact h
  refine ⟨hsafe, ?_, hevents.trans hposted.events, hlost.trans hposted.lost, fun c => ?_,
    fun n => ⟨hpan n, hsecond n⟩, hcandidates, hpriority, haccount,
    fun g hg => ?_, fun g hg => ?_, halloc, hpermit, hlevels, hframe.windows,
    hframe.params, hframe.phaseOf, hmarks, hframe.ports,
    hframe.now, hframe.rate, hframe.rstLow, hframe.pending⟩
  · have hlow : t.rstLow = s.rstLow := hframe.rstLow
    rw [State.faultLine, hsafe, hlow, Bool.and_true]
  · rw [hcoil, Coil.cleared, Coil.toOff, Coil.atRest, restRemaining_eq]
  · exact (hdesk g).trans (if_pos hg)
  · exact (hdesk g).trans (if_neg hg)

end Sys2Proof.Machine

/-! PROOFS. READ PANS, READ MAP, CONFIGURE, CHECK TEST and SET WINDOW: what each reads, writes and answers (R103, R171, R187,
R192, R197, R198). -/

namespace Sys2Proof.Machine

/-! ## Work on the items of a list, up to the one at which it stops -/

/-- Work that goes through unchanged up to one item and stops there, stops as a whole. -/
theorem forEach_stops {n : Nat} {work : Fin n → Op} {s v : State} {x : Fin n} (hx : work x s = .safe v)
    (h : ∀ y < x, work y s = .ok s) : ∀ l : List (Fin n), l.Pairwise (· < ·) → x ∈ l → forEach work l s = .safe v
  | [], _, hm => absurd hm List.not_mem_nil
  | y :: ys, hl, hm => by
    obtain ⟨hy, hys⟩ := List.pairwise_cons.mp hl
    rcases List.mem_cons.mp hm with rfl | hm
    · simp only [forEach, hx]
      rfl
    · simp only [forEach, h y (hy x hm), Flow.ok_andThen]
      exact forEach_stops hx h ys hys hm

theorem sorted_allSlots : allSlots.Pairwise (· < ·) := List.pairwise_lt_finRange 8

theorem sorted_allCoils : allCoils.Pairwise (· < ·) := List.pairwise_lt_finRange 48

/-! ## The bytes of a pan and of a coil -/

theorem slotState_fields (n : Slot) (st : PanState) : let x := byteOf (n.val + 16 * st.code)
    x.toNat % 8 = n.val ∧ x.getLsbD 3 = false ∧ x.toNat / 16 = st.code := by
  revert n
  cases st <;> decide

theorem levelWindow_fields (level : Fin 14) (w : Option WindowNo) (source : LevelSource) :
    let x := byteOf (level.val + 16 * (w.map (·.val + 1)).getD 0 + 128 * source.code)
    x.toNat % 16 = level.val ∧ x.toNat / 16 % 8 = (w.map (·.val + 1)).getD 0 ∧ x.getLsbD 7 = decide (source = .window) := by
  revert level w
  cases source <;> decide

theorem flags_fields (a b c d e f g : Bool) :
    let x := byteOf (bitOf a 0 + bitOf b 1 + bitOf c 2 + bitOf d 3 + bitOf e 4 + bitOf f 5 + bitOf g 6)
    x.getLsbD 0 = a ∧ x.getLsbD 1 = b ∧ x.getLsbD 2 = c ∧ x.getLsbD 3 = d ∧ x.getLsbD 4 = e ∧ x.getLsbD 5 = f ∧
      x.getLsbD 6 = g ∧ x.getLsbD 7 = false := by
  revert a b c d e f g
  decide

theorem conditions_fields (k : Fin 7) (a b c d : Bool) :
    let x := byteOf (k.val + bitOf a 3 + bitOf b 4 + bitOf c 5 + bitOf d 6)
    x.toNat % 8 = k.val ∧ x.getLsbD 3 = a ∧ x.getLsbD 4 = b ∧ x.getLsbD 5 = c ∧ x.getLsbD 6 = d ∧ x.getLsbD 7 = false := by
  revert k a b c d
  decide

theorem coilCode_lt (st : CoilState) : st.code < 7 := by cases st <;> simp [CoilState.code]

theorem panCode_true_fields (o : PanId) : (panCode true o.slot o.tag.val).toNat % 16 = o.tag.val ∧
    (panCode true o.slot o.tag.val).toNat / 16 % 8 = o.slot.val ∧ (panCode true o.slot o.tag.val).getLsbD 7 = true := by
  have h := toNat_panCode_true o.slot o.tag
  refine ⟨by omega, by omega, ?_⟩
  rw [BitVec.getLsbD, h, Nat.testBit_eq_decide_div_mod_eq, decide_eq_true_iff]
  omega

theorem deliveredPower_eq (s : State) (n : Slot) : s.deliveredPower n = if (s.pan n).state = .present then
    (allGens.map fun g => match s.issuedOrder g with
      | some o => ((o.legs.filter fun l => decide (l.pan = s.panId n)).map (·.power)).sum
      | none => 0).sum else 0 := by
  unfold State.deliveredPower
  refine congrArg (fun f : Gen → Nat => if (s.pan n).state = .present then (allGens.map f).sum else 0) (funext fun g => ?_)
  cases ho : (s.desk g).order with
  | none => simp [State.issuedOrder, ho]
  | some o =>
    obtain ⟨_, state, _, _, _⟩ := o
    cases state <;> simp [State.issuedOrder, ho]

/-- Settles O20: the bytes bit by bit, and the checks in the order of the records. -/
theorem snapshotsReport : Obligations.SnapshotsReport := by
  unfold Obligations.SnapshotsReport
  refine ⟨fun n power p => ?_, fun excluded owner r => ?_, deliveredPower_eq, fun s hl hs => ⟨fun h => ?_, fun h => ?_,
    fun n hn h => ?_, fun c hc h => ?_⟩⟩
  · refine ⟨byteOf (n.val + 16 * p.state.code), byteOf (p.level.val + 16 * (p.window.map (·.val + 1)).getD 0 + 128 * p.source.code),
      byteOf (bitOf p.held 0 + bitOf p.barred 1 + bitOf (p.short ≠ 0) 2 + bitOf (p.unserved ≠ 0) 3 + bitOf p.split 4 +
        bitOf p.autoHold 5 + bitOf p.holdOnLift 6), ?_⟩
    obtain ⟨hslot, h3, hstate⟩ := slotState_fields n p.state
    obtain ⟨hlevel, hwindow, hsource⟩ := levelWindow_fields p.level p.window p.source
    refine ⟨?_, hslot, h3, ?_, hlevel, hwindow, hsource, flags_fields _ _ _ _ _ _ _⟩
    · cases hk : p.centre <;> cases hw : p.window <;> simp [Pan.bytes, hk, hw, wordOf, timerCode, byteOf]
    · rw [hstate]
      cases p.state <;> rfl
  · refine ⟨byteOf (r.state.code + bitOf (decide (r.driver = .alternate)) 3 + bitOf r.hot 4 + bitOf r.fault 5 + bitOf excluded 6),
      (owner.map fun o => panCode true o.slot o.tag.val).getD 0, ?_⟩
    obtain ⟨hstate, h3, h4, h5, h6, h7⟩ :=
      conditions_fields ⟨r.state.code, coilCode_lt r.state⟩ (decide (r.driver = .alternate)) r.hot r.fault excluded
    refine ⟨?_, ?_, h3, h4, h5, h6, h7, ?_, ?_⟩
    · cases owner <;> cases hv : r.coverage <;> simp [Coil.bytes, hv, byteOf]
    · rw [hstate]
      cases r.state <;> rfl
    · rintro rfl
      rfl
    · rintro o rfl
      exact panCode_true_fields o
  · exact exec_answered (k := .readPans) hl rfl rfl (fun _ => rfl) (a := .done s.panFields) (by
      simp [serve, serveReadPans, hs, forEach_eq_self (fun n => checkPan_good (h n)), Flow.snapshot])
  · exact exec_answered (k := .readMap) hl rfl rfl (fun _ => rfl) (a := .done s.mapFields) (by
      simp [serve, serveReadMap, hs, forEach_eq_self (fun c => checkCoil_good (h c)), Flow.snapshot])
  · exact exec_answered (k := .readPans) hl rfl rfl (fun _ => rfl) (a := .refused .safe) (by
      simp [serve, serveReadPans, hs, Flow.snapshot, forEach_stops (checkPan_bad hn) (fun m hm => checkPan_good (h m hm)) _
        sorted_allSlots (mem_allSlots n)])
  · exact exec_answered (k := .readMap) hl rfl rfl (fun _ => rfl) (a := .refused .safe) (by
      simp [serve, serveReadMap, hs, Flow.snapshot, forEach_stops (checkCoil_bad hc) (fun d hd => checkCoil_good (h d hd)) _
        sorted_allCoils (mem_allCoils c)])

/-! ## CONFIGURE -/

section
variable {s : State} {code lo hi : Byte} {p : Param}

theorem serve_configure_length {body : List Byte} (hs : s.safe = false) (h1 : body.length ≠ 1) (h3 : body.length ≠ 3) (l : Link) :
    serve .configure l body s = (s, .refused .outOfRange) := by
  simp only [serve, serveConfigure, hs, Bool.false_eq_true, if_false]
  split
  · exact absurd rfl h1
  · exact absurd rfl h3
  · rfl

theorem serve_configure_unknown (hs : s.safe = false) (h : paramFrom code = none) (l : Link) :
    serve .configure l [code] s = (s, .refused .outOfRange) ∧ serve .configure l [code, lo, hi] s = (s, .refused .outOfRange) := by
  simp [serve, serveConfigure, hs, h]

theorem serve_configure_read (hs : s.safe = false) (h : paramFrom code = some p) (l : Link) :
    serve .configure l [code] s = readParam code p s := by
  simp [serve, serveConfigure, hs, h]

theorem serve_configure_write (hs : s.safe = false) (h : paramFrom code = some p) (l : Link) :
    serve .configure l [code, lo, hi] s = writeParam code p (wordFrom lo hi) s := by
  simp [serve, serveConfigure, hs, h]

theorem checkParam_bad {n : Fin 13} (h : s.levels.codeOk = false) : checkParam (.level n) s = .safe (enterSafe .levels s) := by
  simp [checkParam, checkLevels, h]

theorem checkParam_good (h : (∃ n, p = .level n) → s.levels.codeOk = true) : checkParam p s = .ok s := by
  cases p with
  | level n => simp [checkParam, checkLevels, h ⟨n, rfl⟩]
  | _ => rfl

theorem paramValue_setParam_self {v : Nat} (h : s.paramFits v p = true) : (s.setParam v p).paramValue p = v := by
  cases p with
  | level n => simp [State.setParam, State.paramValue, LevelTable.entry]
  | phase g =>
    have hv : v = 1 ∨ v = 2 := by
      rw [State.paramFits, decide_eq_true_iff] at h
      omega
    rcases hv with rfl | rfl <;> simp [State.setParam, State.paramValue, State.genPhase, State.setGenPhase, phaseCode]
  | _ => rfl

theorem paramValue_setParam_other {v : Nat} {q : Param} (h : q ≠ p) : (s.setParam v p).paramValue q = s.paramValue q := by
  cases p with
  | level n =>
    cases q with
    | level m =>
      have hm : n.val ≠ m.val := fun e => h (congrArg Param.level (Fin.ext e.symm))
      simp [State.setParam, State.paramValue, LevelTable.entry, hm]
    | _ => rfl
  | phase g =>
    cases q with
    | phase k =>
      have hk : g.val ≠ k.val := fun e => h (congrArg Param.phase (Fin.ext e.symm))
      simp [State.setParam, State.paramValue, State.genPhase, State.setGenPhase, hk]
    | _ => rfl
  | _ => cases q <;> first | rfl | exact absurd rfl h

theorem setParam_frame (v : Nat) : s.setParam v p = { s with
    levels := (s.setParam v p).levels, params := (s.setParam v p).params, phaseOf := (s.setParam v p).phaseOf } := by
  cases p <;> rfl

theorem levels_setParam (v : Nat) (h : s.levels.codeOk = true) : (s.setParam v p).levels.codeOk = true := by
  cases p <;> first | rfl | exact h

theorem anyCharge_eq_false (h : ∀ g, s.charge g = 0) : s.anyCharge = false := by
  rw [Bool.eq_false_iff, ne_eq, anyCharge_iff]
  exact fun ⟨g, hg⟩ => hg (h g)

end

/-- Settles O21: the tests in their order, and the one parameter written. -/
theorem configureReadsAndWrites : Obligations.ConfigureReadsAndWrites := by
  unfold Obligations.ConfigureReadsAndWrites
  intro s code lo hi body hl hb
  have hkind : ReqKind.configure ∉ [ReqKind.status, .restart, .readEvents] := by decide
  refine ⟨fun hs => ⟨?_, refuses_of_serve (k := .configure) (body := [code, lo, hi]) hl rfl rfl nofun
    (serve_safe hs hkind _ _)⟩, fun hs => ⟨fun h1 h3 => ?_, fun h => ?_, ?_⟩⟩
  · have hc : exec (.configureRead .pl body) s = .next (s.takeMessage .pl ⟨ReqKind.configure.code, body⟩) :=
      congrArg Host.Outcome.next (messageArrives_listens hl _ hb)
    exact refuses_of_route hc ((route_served (k := .configure) rfl nofun).trans (serve_safe hs hkind _ _))
  · have hc : exec (.configureRead .pl body) s = .next (s.takeMessage .pl ⟨ReqKind.configure.code, body⟩) :=
      congrArg Host.Outcome.next (messageArrives_listens hl _ hb)
    exact refuses_of_route hc ((route_served (k := .configure) rfl nofun).trans (serve_configure_length hs h1 h3 _))
  · exact ⟨refuses_of_serve (k := .configure) hl rfl rfl nofun (serve_configure_unknown (lo := lo) (hi := hi) hs h _).1,
      refuses_of_serve (k := .configure) hl rfl rfl nofun (serve_configure_unknown hs h _).2⟩
  intro p hp v
  refine ⟨?_, fun hcode => ?_⟩
  · rintro ⟨n, rfl⟩ hbad
    have hread : serve .configure .pl [code] s = (enterSafe .levels s, .refused .safe) := by
      rw [serve_configure_read hs hp, readParam, checkParam_bad hbad]
    have hwrite : serve .configure .pl [code, lo, hi] s = (enterSafe .levels s, .refused .safe) := by
      rw [serve_configure_write hs hp, writeParam, checkParam_bad hbad]
    exact ⟨exec_answered (k := .configure) hl rfl rfl nofun hread, exec_answered (k := .configure) hl rfl rfl nofun hwrite⟩
  · have hread : serve .configure .pl [code] s = (s, .done (s.paramFields code p)) := by
      rw [serve_configure_read hs hp, readParam, checkParam_good hcode]
    have hwrite : serve .configure .pl [code, lo, hi] s = if s.paramFits v p = false then (s, .refused .outOfRange)
        else if s.anyCharge then (s, .refused .busy)
        else (s.setParam v p, .done ((s.setParam v p).paramFields code p)) := by
      rw [serve_configure_write hs hp, writeParam, checkParam_good hcode]
    refine ⟨exec_answered (k := .configure) hl rfl rfl nofun hread, fun hfit => ?_, fun hfit hcharge => ?_,
      fun hfit hcharge => ?_⟩
    · exact refuses_of_serve (k := .configure) hl rfl rfl nofun (hwrite.trans (if_pos hfit))
    · refine refuses_of_serve (k := .configure) (r := .busy) hl rfl rfl nofun (hwrite.trans ?_)
      rw [if_neg (by simp [hfit]), if_pos ((anyCharge_iff s).mpr hcharge)]
    · have hdone : serve .configure .pl [code, lo, hi] s = (s.setParam v p, .done (code :: wordOf v)) := by
        rw [hwrite, if_neg (by simp [hfit]), if_neg (by simp [anyCharge_eq_false hcharge]), State.paramFields,
          paramValue_setParam_self hfit]
      obtain ⟨t, ht, ha⟩ := exec_answered (k := .configure) hl rfl rfl nofun hdone
      exact ⟨_, t, ht, ha, setParam_frame v, paramValue_setParam_self hfit, fun q hq => paramValue_setParam_other hq,
        levels_setParam v⟩

/-! ## CHECK TEST -/

theorem armedSet_eq (u : State) : u.armedSet = wordOf ([TestTarget.coilMap, .panTable, .orders, .link .pl, .link (.gl 0),
    .link (.gl 1), .link (.gl 2), .link (.gl 3), .link .sl].map fun x => if u.armed x then 2 ^ x.place else 0).sum := by
  simp only [List.map_cons, List.map_nil, List.sum_cons, List.sum_nil, State.armed, TestTarget.place, State.armedSet, bitOf,
    Nat.add_assoc, Nat.add_zero]
  rfl

theorem serve_checkTest {s : State} {b : Byte} {x : TestTarget} (hs : s.safe = false) (hx : targetFrom b = some x) (l : Link) :
    serve .checkTest l [b] s = if s.anyCharge then (s, .refused .busy) else (s.arm x, .done (s.arm x).armedSet) := by
  simp [serve, serveCheckTest, hs, hx]

theorem arm_frame (s : State) (x : TestTarget) : s.arm x = { s with marks := (s.arm x).marks, ports := (s.arm x).ports } := by
  cases x <;> rfl

theorem port_clearLinkMarks (s : State) (l : Link) : s.clearLinkMarks.port l = { s.port l with forcedBad := false } := by
  simp [State.clearLinkMarks, State.port]

theorem port_arm_link (s : State) (k l : Link) :
    (s.arm (.link k)).port l = if l = k then { s.port l with forcedBad := true } else s.port l := by
  by_cases h : l = k
  · subst h
    simp [State.arm]
  · simp [State.arm, State.port_setPort, h]

theorem port_arm (s : State) (x : TestTarget) (l : Link) :
    ((s.arm x).port l).rx = (s.port l).rx ∧ ((s.arm x).port l).overrun = (s.port l).overrun := by
  cases x with
  | none =>
    have h : (s.arm .none).port l = { s.port l with forcedBad := false } := port_clearLinkMarks _ l
    rw [h]
    exact ⟨rfl, rfl⟩
  | link k =>
    rw [port_arm_link]
    split <;> exact ⟨rfl, rfl⟩
  | _ => exact ⟨rfl, rfl⟩

/-- The marks armed once a target has been named: none for NONE, and the target's with those that were. -/
theorem armed_arm (s : State) (target x : TestTarget) (hx : x ≠ .none) :
    (s.arm target).armed x = true ↔ target ≠ .none ∧ (x = target ∨ s.armed x = true) := by
  cases target with
  | none =>
    cases x with
    | link l =>
      have h : (s.arm .none).port l = { s.port l with forcedBad := false } := port_clearLinkMarks _ l
      simp [State.armed, h]
    | none => exact absurd rfl hx
    | _ => simp [State.armed, State.arm, State.clearLinkMarks, State.setMarks, TableMarks.clear]
  | link k =>
    cases x with
    | link l =>
      simp only [State.armed, port_arm_link]
      split
      · next h => simp [h]
      · next h => simp [h]
    | none => exact absurd rfl hx
    | _ => simp [State.armed, State.arm]
  | _ =>
    cases x with
    | link l => simp [State.armed, State.arm]
    | none => exact absurd rfl hx
    | _ => simp [State.armed, State.arm, State.setMarks]

theorem armed_restart (s : State) (x : TestTarget) : (restart s).armed x = false := by
  cases x with
  | none => rfl
  | link l => exact forcedBad_restart s l
  | _ =>
    unfold restart
    generalize allGens.foldl restartGen s.unchecked = u
    rfl

theorem armed_powerOn (straps : BitVec 2) (q : List Instr) (n : Nat) (x : TestTarget) :
    (State.powerOn straps q n).armed x = false := by
  cases x with
  | link l => simp [State.armed, Port.initial]
  | _ => rfl

/-- Settles O23: the tests of the rule in their order, the marks of each target, and the states that clear them. -/
theorem checkTestArms : Obligations.CheckTestArms := by
  unfold Obligations.CheckTestArms
  refine ⟨?_, armed_restart, armed_powerOn, fun b s => ⟨(lists_enterSafe b s).2.2.2.2, (enterSafe_frame b s).ports⟩⟩
  intro s body hl hb marks
  refine ⟨fun hs => ?_, fun hs h => ?_, fun b target hs hbody hx => ?_⟩
  · exact refuses_of_serve (k := .checkTest) hl hb rfl nofun (serve_safe hs (by decide) _ _)
  · exact refuses_of_serve (k := .checkTest) hl hb rfl nofun (serveCheckTest_range hs h)
  · subst hbody
    refine ⟨fun h => ?_, fun h => ?_⟩
    · refine refuses_of_serve (k := .checkTest) (r := .busy) hl hb rfl nofun ((serve_checkTest hs hx _).trans ?_)
      rw [if_pos ((anyCharge_iff s).mpr h)]
    · have hserve : serve .checkTest .pl [b] s = (s.arm target, .done (wordOf (marks (s.arm target)))) := by
        rw [serve_checkTest hs hx, if_neg (by simp [anyCharge_eq_false h]), armedSet_eq]
      obtain ⟨hsends, hmark⟩ := checkTest_reply (s.arm target) [b] (.done (wordOf (marks (s.arm target))))
      refine ⟨s.arm target, _, exec_served (k := .checkTest) hl hb rfl nofun, ?_, ?_, ?_, arm_frame s target,
        port_arm s target, armed_arm s target⟩
      · rw [hserve]
        exact answered_reply _ _ _ _ (.done _)
      · rw [hserve]
        exact hsends
      · rw [hserve]
        exact hmark

/-! ## SET WINDOW -/

theorem excluded_iff (s : State) (c : CoilNo) : s.excluded c = true ↔ ∃ w, (s.window w).mode = .exclude ∧
    (s.window w).colBase ≤ column c ∧ column c ≤ (s.window w).colLimit ∧
    (s.window w).rowBase ≤ row c ∧ row c ≤ (s.window w).rowLimit := by
  simp [State.excluded, allWindows, Window.contains]

theorem inLeg_iff (st : CoilState) : st.inLeg = true ↔ (∃ p n, st = .driven p n) ∨ ∃ p n d, st = .transfer p n d := by
  cases st <;> simp [CoilState.inLeg]

theorem modeFrom_eq_none {b : Byte} (h : 2 < b.toNat) : modeFrom b = none := by
  have hne : b ≠ 0 ∧ b ≠ 1 ∧ b ≠ 2 := ⟨by rintro rfl; exact absurd h (by decide), by rintro rfl; exact absurd h (by decide),
    by rintro rfl; exact absurd h (by decide)⟩
  obtain ⟨h0, h1, h2⟩ := hne
  exact (if_neg h0).trans ((if_neg h1).trans (if_neg h2))

theorem modeFrom_code (m : WindowMode) : modeFrom m.code = some m := by cases m <;> rfl

theorem windowFrom_eq_none {mode cb cl rb rl preset : Byte} (h : 2 < mode.toNat ∨ 7 < cb.toNat ∨ 7 < cl.toNat ∨ 5 < rb.toNat ∨
    5 < rl.toNat ∨ 12 < preset.toNat) : windowFrom mode cb cl rb rl preset = none := by
  unfold windowFrom
  split
  · next hm ha hb hc hd hp =>
    rcases h with h | h | h | h | h | h
    · cases (modeFrom_eq_none h).symm.trans hm
    · cases (below_eq_none (n := 8) h).symm.trans ha
    · cases (below_eq_none (n := 8) h).symm.trans hb
    · cases (below_eq_none (n := 6) h).symm.trans hc
    · cases (below_eq_none (n := 6) h).symm.trans hd
    · cases (below_eq_none (n := 13) h).symm.trans hp
  · rfl

theorem windowFrom_eq_some {cb cl rb rl preset : Byte} (m : WindowMode) (level : Fin 13) (hcb : cb.toNat ≤ 7) (hcl : cl.toNat ≤ 7)
    (hrb : rb.toNat ≤ 5) (hrl : rl.toNat ≤ 5) (hp : preset.toNat = level.val) :
    windowFrom m.code cb cl rb rl preset = some ⟨m, cb.toNat, cl.toNat, rb.toNat, rl.toNat, level⟩ := by
  rw [windowFrom, modeFrom_code, below_eq_some (n := 8) (i := ⟨cb.toNat, by omega⟩) rfl,
    below_eq_some (n := 8) (i := ⟨cl.toNat, by omega⟩) rfl, below_eq_some (n := 6) (i := ⟨rb.toNat, by omega⟩) rfl,
    below_eq_some (n := 6) (i := ⟨rl.toNat, by omega⟩) rfl, below_eq_some hp]

theorem serve_setWindow_range {s : State} {a mode cb cl rb rl preset : Byte} (hs : s.safe = false) (h : 3 < a.toNat ∨
    2 < mode.toNat ∨ 7 < cb.toNat ∨ 7 < cl.toNat ∨ 5 < rb.toNat ∨ 5 < rl.toNat ∨ 12 < preset.toNat) (l : Link) :
    serve .setWindow l [a, mode, cb, cl, rb, rl, preset] s = (s, .refused .outOfRange) := by
  simp only [serve, serveSetWindow, hs, Bool.false_eq_true, if_false]
  rcases h with h | h
  · simp [below_eq_none (n := 4) h]
  · cases below 4 a <;> simp [windowFrom_eq_none h]

theorem byteOf_toNat (b : Byte) : byteOf b.toNat = b := by simp [byteOf]

/-- Work on orders leaves the windows as they are, whether or not it is abandoned. -/
theorem Run.windows {w : Scope} {D : Gen → Prop} {s : State} {f : Flow} (h : Run w D s f) : f.state.windows = s.windows := by
  obtain ⟨t, ht, rfl | ⟨b, _, rfl⟩⟩ := h
  · exact ht.unmoved.windows
  · exact (enterSafe_frame b t).windows.trans ht.unmoved.windows

theorem run_reportAll_all (gs : List Gen) (s : State) : Run .orders (fun _ => True) s (reportAll gs s) :=
  run_reportAll gs s (holdsNone_all s)

theorem Run.reported_state {gs : List Gen} {s : State} (hs : s.Sound) : Reported gs s (reportAll gs s).state := by
  obtain ⟨t, ht⟩ := Run.reported (gs := gs) hs
  rw [ht.work]
  exact ht

/-- Settles O31: the tests of the rule, the window written, and the reports on it. -/
theorem setWindowPlaces : Obligations.SetWindowPlaces := by
  unfold Obligations.SetWindowPlaces
  refine ⟨excluded_iff, fun r => inLeg_iff r.state, ?_⟩
  intro s a mode cb cl rb rl preset hl body
  refine ⟨fun hs => ?_, fun hs h => ?_, ?_⟩
  · exact refuses_of_serve (k := .setWindow) hl rfl rfl nofun (serve_safe hs (by decide) _ _)
  · exact refuses_of_serve (k := .setWindow) hl rfl rfl nofun (serve_setWindow_range hs h _)
  intro w m level hs ha hmode hcb hcl hrb hrl hp placed robbed u
  refine ⟨?_, fun hsound => ?_⟩
  · subst hmode
    have hwindow : u.window w = ⟨m, cb.toNat, cl.toNat, rb.toNat, rl.toNat, level⟩ := by
      have h : u.window w = placed.window w := by
        simp only [State.window, show u.windows = placed.windows from (run_reportAll_all robbed placed).windows]
      rw [h, State.window_setWindow_self]
    refine exec_answered (k := .setWindow) hl rfl rfl nofun (u := u) (a := .done body) ?_
    have hserve : serve .setWindow .pl body s = (u, .done (u.windowFields w)) := by
      simp only [serve, serveSetWindow, hs, Bool.false_eq_true, if_false, body, below_eq_some (i := w) ha,
        windowFrom_eq_some m level hcb hcl hrb hrl hp]
      rfl
    rw [hserve, State.windowFields, hwindow, ← ha]
    simp only [byteOf_toNat, ← hp]
    rfl
  · exact Run.reported_state (hsound.congr rfl rfl rfl rfl rfl)

end Sys2Proof.Machine

/-! PROOFS. Several records written at once, every code being valid; a millisecond of the time base, count by count (00 section 4;
R12, R59, R95, R97, R107, R141, R161, R178), and the step that passes it. -/

namespace Sys2Proof.Machine

/-! ## All the coils, or all the pans, written at once -/

/-- The state with these coil records. -/
@[irreducible] def State.withCoils (s : State) (f : CoilNo → Coil) : State := { s with coils := Vector.ofFn f }

/-- The state with these pan records. -/
@[irreducible] def State.withPans (s : State) (f : Slot → Pan) : State := { s with pans := Vector.ofFn f }

theorem withCoils_eq (s : State) (f : CoilNo → Coil) : s.withCoils f = { s with coils := Vector.ofFn f } := by
  rw [State.withCoils]

theorem withPans_eq (s : State) (f : Slot → Pan) : s.withPans f = { s with pans := Vector.ofFn f } := by
  rw [State.withPans]

section
variable (s : State) (f : CoilNo → Coil)

@[simp] theorem rstLow_withCoils : (s.withCoils f).rstLow = s.rstLow := by simp only [withCoils_eq]

@[simp] theorem rate_withCoils : (s.withCoils f).rate = s.rate := by simp only [withCoils_eq]

@[simp] theorem now_withCoils : (s.withCoils f).now = s.now := by simp only [withCoils_eq]

@[simp] theorem pans_withCoils : (s.withCoils f).pans = s.pans := by simp only [withCoils_eq]

@[simp] theorem partSeconds_withCoils : (s.withCoils f).partSeconds = s.partSeconds := by simp only [withCoils_eq]

@[simp] theorem candidates_withCoils : (s.withCoils f).candidates = s.candidates := by simp only [withCoils_eq]

@[simp] theorem priority_withCoils : (s.withCoils f).priority = s.priority := by simp only [withCoils_eq]

@[simp] theorem windows_withCoils : (s.withCoils f).windows = s.windows := by simp only [withCoils_eq]

@[simp] theorem levels_withCoils : (s.withCoils f).levels = s.levels := by simp only [withCoils_eq]

@[simp] theorem params_withCoils : (s.withCoils f).params = s.params := by simp only [withCoils_eq]

@[simp] theorem phaseOf_withCoils : (s.withCoils f).phaseOf = s.phaseOf := by simp only [withCoils_eq]

@[simp] theorem accounts_withCoils : (s.withCoils f).accounts = s.accounts := by simp only [withCoils_eq]

@[simp] theorem desks_withCoils : (s.withCoils f).desks = s.desks := by simp only [withCoils_eq]

@[simp] theorem allocs_withCoils : (s.withCoils f).allocs = s.allocs := by simp only [withCoils_eq]

@[simp] theorem permit_withCoils : (s.withCoils f).permit = s.permit := by simp only [withCoils_eq]

@[simp] theorem safe_withCoils : (s.withCoils f).safe = s.safe := by simp only [withCoils_eq]

@[simp] theorem marks_withCoils : (s.withCoils f).marks = s.marks := by simp only [withCoils_eq]

@[simp] theorem events_withCoils : (s.withCoils f).events = s.events := by simp only [withCoils_eq]

@[simp] theorem eventsLost_withCoils : (s.withCoils f).eventsLost = s.eventsLost := by simp only [withCoils_eq]

@[simp] theorem ports_withCoils : (s.withCoils f).ports = s.ports := by simp only [withCoils_eq]

@[simp] theorem pending_withCoils : (s.withCoils f).pending = s.pending := by simp only [withCoils_eq]

@[simp] theorem freeCount_withCoils : (s.withCoils f).freeCount = s.freeCount := by simp only [withCoils_eq]

@[simp] theorem pan_withCoils (n : Slot) : (s.withCoils f).pan n = s.pan n := by
  simp only [withCoils_eq, State.pan]

@[simp] theorem partSecond_withCoils (n : Slot) : (s.withCoils f).partSecond n = s.partSecond n := by
  simp only [withCoils_eq, State.partSecond]

@[simp] theorem window_withCoils (w : WindowNo) : (s.withCoils f).window w = s.window w := by
  simp only [withCoils_eq, State.window]

@[simp] theorem genPhase_withCoils (g : Gen) : (s.withCoils f).genPhase g = s.genPhase g := by
  simp only [withCoils_eq, State.genPhase]

@[simp] theorem account_withCoils (p : Phase) : (s.withCoils f).account p = s.account p := by
  simp only [withCoils_eq, State.account]

@[simp] theorem desk_withCoils (g : Gen) : (s.withCoils f).desk g = s.desk g := by
  simp only [withCoils_eq, State.desk]

@[simp] theorem alloc_withCoils (g : Gen) : (s.withCoils f).alloc g = s.alloc g := by
  simp only [withCoils_eq, State.alloc]

@[simp] theorem port_withCoils (l : Link) : (s.withCoils f).port l = s.port l := by
  simp only [withCoils_eq, State.port]

end

section
variable (s : State) (f : Slot → Pan)

@[simp] theorem rstLow_withPans : (s.withPans f).rstLow = s.rstLow := by simp only [withPans_eq]

@[simp] theorem rate_withPans : (s.withPans f).rate = s.rate := by simp only [withPans_eq]

@[simp] theorem now_withPans : (s.withPans f).now = s.now := by simp only [withPans_eq]

@[simp] theorem coils_withPans : (s.withPans f).coils = s.coils := by simp only [withPans_eq]

@[simp] theorem partSeconds_withPans : (s.withPans f).partSeconds = s.partSeconds := by simp only [withPans_eq]

@[simp] theorem candidates_withPans : (s.withPans f).candidates = s.candidates := by simp only [withPans_eq]

@[simp] theorem priority_withPans : (s.withPans f).priority = s.priority := by simp only [withPans_eq]

@[simp] theorem windows_withPans : (s.withPans f).windows = s.windows := by simp only [withPans_eq]

@[simp] theorem levels_withPans : (s.withPans f).levels = s.levels := by simp only [withPans_eq]

@[simp] theorem params_withPans : (s.withPans f).params = s.params := by simp only [withPans_eq]

@[simp] theorem phaseOf_withPans : (s.withPans f).phaseOf = s.phaseOf := by simp only [withPans_eq]

@[simp] theorem accounts_withPans : (s.withPans f).accounts = s.accounts := by simp only [withPans_eq]

@[simp] theorem desks_withPans : (s.withPans f).desks = s.desks := by simp only [withPans_eq]

@[simp] theorem allocs_withPans : (s.withPans f).allocs = s.allocs := by simp only [withPans_eq]

@[simp] theorem permit_withPans : (s.withPans f).permit = s.permit := by simp only [withPans_eq]

@[simp] theorem safe_withPans : (s.withPans f).safe = s.safe := by simp only [withPans_eq]

@[simp] theorem marks_withPans : (s.withPans f).marks = s.marks := by simp only [withPans_eq]

@[simp] theorem events_withPans : (s.withPans f).events = s.events := by simp only [withPans_eq]

@[simp] theorem eventsLost_withPans : (s.withPans f).eventsLost = s.eventsLost := by simp only [withPans_eq]

@[simp] theorem ports_withPans : (s.withPans f).ports = s.ports := by simp only [withPans_eq]

@[simp] theorem pending_withPans : (s.withPans f).pending = s.pending := by simp only [withPans_eq]

@[simp] theorem freeCount_withPans : (s.withPans f).freeCount = s.freeCount := by simp only [withPans_eq]

@[simp] theorem coil_withPans (c : CoilNo) : (s.withPans f).coil c = s.coil c := by
  simp only [withPans_eq, State.coil]

@[simp] theorem partSecond_withPans (n : Slot) : (s.withPans f).partSecond n = s.partSecond n := by
  simp only [withPans_eq, State.partSecond]

@[simp] theorem window_withPans (w : WindowNo) : (s.withPans f).window w = s.window w := by
  simp only [withPans_eq, State.window]

@[simp] theorem genPhase_withPans (g : Gen) : (s.withPans f).genPhase g = s.genPhase g := by
  simp only [withPans_eq, State.genPhase]

@[simp] theorem account_withPans (p : Phase) : (s.withPans f).account p = s.account p := by
  simp only [withPans_eq, State.account]

@[simp] theorem desk_withPans (g : Gen) : (s.withPans f).desk g = s.desk g := by
  simp only [withPans_eq, State.desk]

@[simp] theorem alloc_withPans (g : Gen) : (s.withPans f).alloc g = s.alloc g := by
  simp only [withPans_eq, State.alloc]

@[simp] theorem port_withPans (l : Link) : (s.withPans f).port l = s.port l := by
  simp only [withPans_eq, State.port]

end

@[simp] theorem coil_withCoils (s : State) (f : CoilNo → Coil) (c : CoilNo) : (s.withCoils f).coil c = f c := by
  rw [State.coil, withCoils_eq, Fin.getElem_fin, Vector.getElem_ofFn]

@[simp] theorem pan_withPans (s : State) (f : Slot → Pan) (n : Slot) : (s.withPans f).pan n = f n := by
  rw [State.pan, withPans_eq, Fin.getElem_fin, Vector.getElem_ofFn]

theorem withCoils_self (s : State) : s.withCoils s.coil = s := by
  have h : Vector.ofFn s.coil = s.coils := Vector.ext fun i hi => by
    rw [Vector.getElem_ofFn]
    rfl
  rw [withCoils_eq, h]

theorem withPans_self (s : State) : s.withPans s.pan = s := by
  have h : Vector.ofFn s.pan = s.pans := Vector.ext fun i hi => by
    rw [Vector.getElem_ofFn]
    rfl
  rw [withPans_eq, h]

theorem withCoils_setCoil (s : State) (c : CoilNo) (r : Coil) (f : CoilNo → Coil) :
    (s.setCoil c r).withCoils f = s.withCoils f := by
  simp only [withCoils_eq, State.setCoil]

theorem withPans_setPan (s : State) (n : Slot) (p : Pan) (f : Slot → Pan) : (s.setPan n p).withPans f = s.withPans f := by
  simp only [withPans_eq, State.setPan]

theorem sound_withCoils {s : State} (hs : s.Sound) {f : CoilNo → Coil} (hf : ∀ c, (f c).codeOk = true) : (s.withCoils f).Sound where
  coils c := by rw [coil_withCoils]; exact hf c
  pans n := by rw [pan_withCoils]; exact hs.pans n
  orders g := by rw [desk_withCoils]; exact hs.orders g
  levels := by rw [levels_withCoils]; exact hs.levels
  marks := by rw [marks_withCoils]; exact hs.marks

theorem sound_withPans {s : State} (hs : s.Sound) {f : Slot → Pan} (hf : ∀ n, (f n).codeOk = true) : (s.withPans f).Sound where
  coils c := by rw [coil_withPans]; exact hs.coils c
  pans n := by rw [pan_withPans]; exact hf n
  orders g := by rw [desk_withPans]; exact hs.orders g
  levels := by rw [levels_withPans]; exact hs.levels
  marks := by rw [marks_withPans]; exact hs.marks

/-- Updates of different coils, every code being valid. -/
theorem forEach_editCoil_of_sound {f : CoilNo → Coil → Coil} (hf : ∀ c r, r.codeOk = true → (f c r).codeOk = true) :
    ∀ (l : List CoilNo), l.Nodup → ∀ {s : State}, s.Sound → forEach (fun c => editCoil c (f c)) l s =
      .ok (s.withCoils fun c => if c ∈ l then f c (s.coil c) else s.coil c)
  | [], _, s, _ => congrArg Flow.ok (withCoils_self s).symm
  | c :: cs, hl, s, hs => by
    obtain ⟨hc, hcs⟩ := List.nodup_cons.mp hl
    have hok := hf c _ (hs.coils c)
    rw [forEach, editCoil_of_sound hs c hok, Flow.ok_andThen, forEach_editCoil_of_sound hf cs hcs (hs.setCoil c hok),
      withCoils_setCoil]
    refine congrArg (fun x => Flow.ok (s.withCoils x)) (funext fun d => ?_)
    by_cases hd : d = c
    · subst hd
      simp [hc]
    · simp [State.coil_setCoil, hd]

/-- Updates of different pans, every code being valid. -/
theorem forEach_editPan_of_sound {f : Slot → Pan → Pan} (hf : ∀ n p, p.codeOk = true → (f n p).codeOk = true) :
    ∀ (l : List Slot), l.Nodup → ∀ {s : State}, s.Sound → forEach (fun n => editPan n (f n)) l s =
      .ok (s.withPans fun n => if n ∈ l then f n (s.pan n) else s.pan n)
  | [], _, s, _ => congrArg Flow.ok (withPans_self s).symm
  | n :: ns, hl, s, hs => by
    obtain ⟨hn, hns⟩ := List.nodup_cons.mp hl
    have hok := hf n _ (hs.pans n)
    rw [forEach, editPan_of_sound hs n hok, Flow.ok_andThen, forEach_editPan_of_sound hf ns hns (hs.setPan n hok),
      withPans_setPan]
    refine congrArg (fun x => Flow.ok (s.withPans x)) (funext fun m => ?_)
    by_cases hm : m = n
    · subst hm
      simp [hn]
    · simp [State.pan_setPan, hm]

theorem nodup_allSlots : allSlots.Nodup := List.nodup_finRange 8

theorem nodup_allCoils : allCoils.Nodup := List.nodup_finRange 48

/-! ## A millisecond -/

/-- The state a millisecond later, every code being valid. -/
def State.later (s : State) : State := s.tickCounts.withPans fun n => (s.pan n).tick (s.heating n)

theorem Pan.tick_eq_self {s : State} {n : Slot} (h : s.panCounts n = false) : (s.pan n).tick (s.heating n) = s.pan n := by
  obtain ⟨hlost, hboost⟩ := Bool.or_eq_false_iff.mp h
  have hl : (if (s.pan n).state = .lost then downOne (s.pan n).lostRemaining else (s.pan n).lostRemaining) =
      (s.pan n).lostRemaining := by
    split
    · next hst =>
      cases hr : (s.pan n).lostRemaining with
      | none => rfl
      | some k =>
        have hk : k = 0 := by simpa [hst, hr] using hlost
        simp [downOne, hk]
    · rfl
  have hb : (if s.heating n = true then downOne (s.pan n).boost else (s.pan n).boost) = (s.pan n).boost := by
    split
    · next hh =>
      cases hr : (s.pan n).boost with
      | none => rfl
      | some k =>
        have hk : k = 0 := by simpa [hh, hr] using hboost
        simp [downOne, hk]
    · rfl
  unfold Pan.tick
  rw [hl, hb]

theorem heating_congr {s t : State} {n : Slot} (hst : (t.pan n).state = (s.pan n).state) (hl : (t.pan n).level = (s.pan n).level)
    (hh : (t.pan n).held = (s.pan n).held) (hb : (t.pan n).barred = (s.pan n).barred)
    (hp : t.permit.isRunning = s.permit.isRunning) (hs : t.safe = s.safe) : t.heating n = s.heating n := by
  simp only [State.heating, hst, hl, hh, hb, hp, hs]

theorem millisecond_of_sound {s : State} (hs : s.Sound) : millisecond s = .ok s.later := by
  rw [millisecond, forEach_editPan_of_sound (f := fun n => Pan.tick (s.heating n)) (fun _ _ h => h) _
    (nodup_allSlots.filter _) (sound_tickCounts hs)]
  refine congrArg (fun x => Flow.ok (s.tickCounts.withPans x)) (funext fun n => ?_)
  by_cases hn : s.panCounts n = true
  · rw [if_pos (List.mem_filter.mpr ⟨mem_allSlots n, hn⟩)]
    rfl
  · rw [if_neg fun h => hn (List.mem_filter.mp h).2, Pan.tick_eq_self (by simpa using hn)]
    rfl

theorem sound_later {s : State} (hs : s.Sound) : s.later.Sound :=
  sound_withPans (sound_tickCounts hs) fun n => hs.pans n

section
variable (s : State)

theorem pan_later (n : Slot) : s.later.pan n = (s.pan n).tick (s.heating n) := pan_withPans _ _ n

theorem rstLow_later : s.later.rstLow = s.rstLow := by
  rw [State.later, rstLow_withPans]
  rfl

theorem now_later : s.later.now = s.now + 1 := by
  rw [State.later, now_withPans]
  rfl

theorem permit_later : s.later.permit = s.permit.tick := by
  rw [State.later, permit_withPans]
  rfl

theorem safe_later : s.later.safe = s.safe := by
  rw [State.later, safe_withPans]
  rfl

theorem coil_later (c : CoilNo) : s.later.coil c = (s.coil c).tick := by
  rw [State.later, coil_withPans]
  simp [State.tickCounts, State.coil]

theorem desk_later (g : Gen) : s.later.desk g = (s.desk g).tick := by
  rw [State.later, desk_withPans]
  simp [State.tickCounts, State.desk]

theorem account_later (p : Phase) : s.later.account p = (s.account p).tick := by
  rw [State.later, account_withPans]
  simp [State.tickCounts, State.account]

theorem port_later (l : Link) : s.later.port l = (s.port l).tick := by
  rw [State.later, port_withPans]
  simp [State.tickCounts, State.port]

theorem partSecond_later (n : Slot) : s.later.partSecond n = s.nextPartSecond n := by
  rw [State.later, partSecond_withPans]
  simp [State.tickCounts, State.partSecond]

theorem timer_later (n : Slot) : (s.later.pan n).timer = (s.pan n).timer := by
  rw [pan_later]
  rfl

theorem heating_later (n : Slot) : s.later.heating n = s.heating n := by
  apply heating_congr
  · rw [pan_later]
    rfl
  · rw [pan_later]
    rfl
  · rw [pan_later]
    rfl
  · rw [pan_later]
    rfl
  · rw [permit_later]
    cases s.permit <;> rfl
  · exact safe_later s

theorem untilSwitchEnd_later (c : CoilNo) : s.later.untilSwitchEnd c = (s.untilSwitchEnd c).map (· - 1) := by
  rw [State.untilSwitchEnd, State.untilSwitchEnd, coil_later]
  cases hc : (s.coil c).state with
  | off m => simp [Coil.tick, hc, downOne]
  | switching o left => simp [Coil.tick, hc]
  | _ => simp [Coil.tick, hc]

theorem untilGone_later (n : Slot) : s.later.untilGone n = (s.untilGone n).map (· - 1) := by
  rw [State.untilGone, State.untilGone, pan_later]
  by_cases h : (s.pan n).state = .lost <;> simp [Pan.tick, h, downOne]

theorem untilSecond_later (n : Slot) : s.later.untilSecond n = (s.untilSecond n).map (· - 1) := by
  rw [State.untilSecond, State.untilSecond, heating_later, timer_later, partSecond_later]
  by_cases h : s.heating n = true ∧ (s.pan n).timer.getD 0 ≠ 0
  · have hsome : (s.pan n).timer.isSome = true := by
      cases ht : (s.pan n).timer with
      | none => simp [ht] at h
      | some k => rfl
    rw [if_pos h, if_pos h, State.nextPartSecond, if_pos ⟨h.1, hsome⟩, Option.map_some]
    congr 1
    omega
  · rw [if_neg h, if_neg h]
    rfl

theorem untilBoostEnd_later (n : Slot) : s.later.untilBoostEnd n = (s.untilBoostEnd n).map (· - 1) := by
  rw [State.untilBoostEnd, State.untilBoostEnd, heating_later, pan_later]
  by_cases h : s.heating n = true <;> simp [Pan.tick, h, downOne]

theorem untilPermitEnd_later : s.later.untilPermitEnd = s.untilPermitEnd.map (· - 1) := by
  rw [State.untilPermitEnd, State.untilPermitEnd, permit_later]
  cases s.permit <;> rfl

theorem untilDeadline_later (p : Phase) : s.later.untilDeadline p = (s.untilDeadline p).map (· - 1) := by
  rw [State.untilDeadline, State.untilDeadline, account_later]
  cases h : (s.account p).shed <;> simp [Account.tick, h]

theorem untilGap_later (l : Link) : s.later.untilGap l = (s.untilGap l).map (· - 1) := by
  rw [State.untilGap, State.untilGap, port_later]
  cases h : (s.port l).rx with
  | receiving bytes causes gap =>
    simp only [Port.tick, h, Config.gapPassed, Option.map_some]
    congr 1
    omega
  | _ => simp [Port.tick, h]

end

/-- Every count that an expiry command names loses one in a millisecond. -/
theorem countOf_later {c : Instr} {f : State → Option Nat} (hf : countOf c = some f) (s : State) :
    f s.later = (f s).map (· - 1) := by
  cases c
  case switchEnd c => cases hf; exact untilSwitchEnd_later s c
  case lostTimeExpiry n => cases hf; exact untilGone_later s n
  case partSecondElapsed n => cases hf; exact untilSecond_later s n
  case boostEnded n => cases hf; exact untilBoostEnd_later s n
  case permitExpired => cases hf; exact untilPermitEnd_later s
  case shedDeadlineExpiry p => cases hf; exact untilDeadline_later s p
  case leaseExpiry g => cases hf; exact congrArg Desk.lease (desk_later s g)
  case yieldTimeout g => cases hf; exact congrArg Desk.yield (desk_later s g)
  case collectionExpiry g => cases hf; exact congrArg Desk.collection (desk_later s g)
  case holdEnd g => cases hf; exact congrArg Desk.hold (desk_later s g)
  case gapTimeout l => cases hf; exact untilGap_later s l
  all_goals cases hf

/-! ## The expiry that waits -/

section
variable {f : State → Option Nat} {work : Op} {s : State}

theorem expire_idle (h : f s = none) : expire f work s = .next s := by
  simp [expire, h]

theorem expire_due (hr : s.rstLow = false) (h : f s = some 0) : expire f work s = .next (work s).state := by
  simp [expire, hr, h, elapse]

theorem expire_later (hs : s.Sound) (hr : s.rstLow = false) {k : Nat} (h : f s = some (k + 1)) (hk : f s.later = some k) :
    expire f work s = expire f work s.later := by
  have hr' : s.later.rstLow = false := (rstLow_later s).trans hr
  simp [expire, hr, hr', h, hk, elapse, millisecond_of_sound hs, Flow.state]

end

theorem execGapTimeout_later {s : State} {l : Link} (hs : s.Sound) (hr : s.rstLow = false) {k : Nat}
    (h : s.untilGap l = some (k + 1)) (hk : s.later.untilGap l = some k) :
    execGapTimeout l s = execGapTimeout l s.later := by
  have hr' : s.later.rstLow = false := (rstLow_later s).trans hr
  simp [execGapTimeout, hr, hr', h, hk, elapse, millisecond_of_sound hs, Flow.state]

/-- Settles O4: an expiry runs the time base for as long as its count says, a millisecond at a time. -/
theorem expiryWaitsForItsCount : Obligations.ExpiryWaitsForItsCount := by
  unfold Obligations.ExpiryWaitsForItsCount
  intro c f s hf hr
  rcases expiryWork_of_countOf hf with ⟨work, hw⟩ | ⟨l, rfl⟩
  · rw [exec_expiry hf hw]
    refine ⟨expire_idle, fun k hs hk => ?_⟩
    have hlater : f s.later = some k := by simp [countOf_later hf, hk]
    refine ⟨s.later, millisecond_of_sound hs, hlater, sound_later hs, ?_⟩
    rw [exec_expiry hf hw]
    exact expire_later hs hr hk hlater
  · cases hf
    refine ⟨fun h => ?_, fun k hs hk => ?_⟩
    · change execGapTimeout l s = _
      simp [execGapTimeout, h]
    · have hlater : s.later.untilGap l = some k := by simp [untilGap_later, hk]
      exact ⟨s.later, millisecond_of_sound hs, hlater, sound_later hs, execGapTimeout_later hs hr hk hlater⟩

/-! ## The step on an empty queue -/

theorem mem_allLinks (l : Link) : l ∈ allLinks := by
  cases l <;> simp [allLinks, mem_allGens]

/-- What has fallen due. -/
theorem mem_dues_iff (s : State) (c : Instr) : c ∈ s.dues ↔ (∃ f, countOf c = some f ∧ f s = some 0) ∨
    (∃ n, c = .timerDone n ∧ s.heating n = true ∧ (s.pan n).timer = some 0) ∨
    ∃ g entry, c = .waitConditionCleared g ∧ (s.desk g).desk = .waiting entry ∧ s.waitBlocked g = false := by
  have hwait : ∀ g, s.waitIsOver g = true ↔ ∃ entry, (s.desk g).desk = .waiting entry ∧ s.waitBlocked g = false := by
    intro g
    unfold State.waitIsOver
    cases (s.desk g).desk <;> simp
  cases c
  case shedDeadlineExpiry p => cases p <;> simp [State.dues, countOf]
  all_goals simp [State.dues, countOf, State.timerDue, hwait, mem_allCoils, mem_allSlots, mem_allGens, mem_allLinks]

theorem step_idle {s : State} (h : s.pending = []) (hr : s.rstLow = false) : step s = match s.dues with
    | [] => .next (millisecond s).state
    | [c] => exec c s
    | c :: d :: rest => exec ((c :: d :: rest).getD (Config.freeChoice s.freeCount % (c :: d :: rest).length) c)
        { s with freeCount := s.freeCount + 1 } := by
  simp only [step, h, idle, hr, Bool.false_eq_true, if_false] <;> rfl

/-- Settles O3: a millisecond count by count, and the choice among the expiries due. -/
theorem idleStepPassesTime : Obligations.IdleStepPassesTime := by
  unfold Obligations.IdleStepPassesTime
  intro s hq hr hs
  have hstep := step_idle hq hr
  have htime : s.dues = [] → step s = .next s.later := fun h => by
    rw [hstep, h, millisecond_of_sound hs]
    rfl
  refine ⟨fun h => (htime h).trans (by rw [State.later, withPans_eq]), fun h => ?_, mem_dues_iff s,
    fun h => ⟨s.later, htime h, now_later s, sound_later hs,
    fun c f hf => countOf_later hf s, fun n => ?_, fun n => ⟨heating_later s n, timer_later s n⟩⟩⟩
  · match hd : s.dues with
    | [] => exact absurd hd h
    | [c] => exact ⟨c, List.mem_singleton_self c, .inl (by rw [hstep, hd])⟩
    | c :: d :: rest =>
      refine ⟨_, ?_, .inr (by rw [hstep, hd])⟩
      rw [List.getD_eq_getElem _ _ (Nat.mod_lt _ (by simp))]
      exact List.getElem_mem _
  · rw [partSecond_later, State.nextPartSecond]
    by_cases hn : s.heating n = true ∧ (s.pan n).timer.isSome = true
    · rw [if_pos hn, if_pos hn]
      obtain ⟨hheat, htimer⟩ := hn
      obtain ⟨k, hk⟩ := Option.isSome_iff_exists.mp htimer
      have hnone : ∀ c, c ∉ s.dues := by simp [h]
      have hk0 : k ≠ 0 := by
        rintro rfl
        exact hnone (.timerDone n) ((mem_dues_iff s _).mpr (.inr (.inl ⟨n, rfl, hheat, hk⟩)))
      have hsecond : s.untilSecond n = some (1000 - s.partSecond n) := if_pos ⟨hheat, by simpa [hk] using hk0⟩
      have hlt : s.partSecond n < 1000 := by
        by_contra hge
        refine hnone (.partSecondElapsed n) ((mem_dues_iff s _).mpr (.inl ⟨_, rfl, ?_⟩))
        rw [hsecond]
        congr 1
        omega
      omega
    · rw [if_neg hn, if_neg hn]

end Sys2Proof.Machine

/-! PROOFS. Work that writes coil and pan records, posts events and edits the tracker's lists, and so keeps whatever none of
these touches; the budget's books (R107, R108, R141) are kept so. -/

namespace Sys2Proof.Machine

/-! ## Frames -/

/-- The work leads to a related state, from which it goes on or has entered SAFE. -/
def Leads (R : State → State → Prop) (s : State) (f : Flow) : Prop :=
  ∃ t, R s t ∧ (f = .ok t ∨ ∃ b, f = .safe (enterSafe b t))

theorem Leads.ok {R : State → State → Prop} {s t : State} (ht : R s t) : Leads R s (.ok t) := ⟨t, ht, .inl rfl⟩

/-- A relation that holds along work: every state has it to itself, and it goes from step to step. -/
structure Frame (R : State → State → Prop) : Prop where
  refl : ∀ s, R s s
  trans : ∀ {s t u}, R s t → R t u → R s u

/-- A relation that the writes of coil records keep. -/
structure CoilFrame (R : State → State → Prop) : Prop extends Frame R where
  coil : ∀ s c r, R s (State.writeCoil s c r)

/-- A relation that the writes of pan records keep as well. -/
structure RecordFrame (R : State → State → Prop) : Prop extends CoilFrame R where
  pan : ∀ s n p, R s (State.writePan s n p)

/-- A relation that posting and the edits of the tracker's lists keep as well. -/
structure TrackFrame (R : State → State → Prop) : Prop extends RecordFrame R where
  post : ∀ s e, R s (State.postEvent s e)
  lists : ∀ (s : State) cs ps ms, R s { s with candidates := cs, priority := ps, partSeconds := ms }

section
variable {R : State → State → Prop} (h : Frame R)
include h

theorem Frame.here (s : State) : Leads R s (.ok s) := Leads.ok (h.refl s)

theorem Frame.bad (b : BadRecord) (s : State) : Leads R s (.safe (enterSafe b s)) := ⟨s, h.refl s, .inr ⟨b, rfl⟩⟩

theorem Frame.after {s t : State} {f : Flow} (ht : R s t) (hf : Leads R t f) : Leads R s f := by
  obtain ⟨u, hu, hend⟩ := hf
  exact ⟨u, h.trans ht hu, hend⟩

theorem Frame.andThen {s : State} {f : Flow} {k : Op} (hf : Leads R s f) (hk : ∀ t, Leads R t (k t)) :
    Leads R s (f.andThen k) := by
  obtain ⟨t, ht, rfl | ⟨b, rfl⟩⟩ := hf
  · exact h.after ht (hk t)
  · exact ⟨t, ht, .inr ⟨b, rfl⟩⟩

theorem Frame.forEach {α : Type} {work : α → Op} (hwork : ∀ x s, Leads R s (work x s)) :
    ∀ (l : List α) (s : State), Leads R s (forEach work l s)
  | [], s => h.here s
  | x :: xs, s => h.andThen (hwork x s) (Frame.forEach hwork xs)

theorem Frame.doIf {k : Op} (b : Bool) (hk : ∀ s, Leads R s (k s)) (s : State) : Leads R s (doIf b k s) := by
  unfold Machine.doIf
  split
  · exact hk s
  · exact h.here s

/-! ## Records -/

theorem Frame.checkCoil (c : CoilNo) (s : State) : Leads R s (checkCoil c s) := by
  unfold Machine.checkCoil
  split
  · exact h.here s
  · exact h.bad _ s

theorem Frame.checkPan (n : Slot) (s : State) : Leads R s (checkPan n s) := by
  unfold Machine.checkPan
  split
  · exact h.here s
  · exact h.bad _ s

theorem Frame.checkOrder (g : Gen) (s : State) : Leads R s (checkOrder g s) := by
  unfold Machine.checkOrder
  split
  · split
    · exact h.here s
    · exact h.bad _ s
  · exact h.here s

theorem Frame.checkLevels (s : State) : Leads R s (checkLevels s) := by
  unfold Machine.checkLevels
  split
  · exact h.here s
  · exact h.bad _ s

theorem Frame.readForBuild (s : State) : Leads R s (readForBuild s) :=
  h.forEach (fun n t => h.andThen (h.checkPan n t) fun u => h.doIf _ (h.forEach h.checkCoil _) u) _ s

end

section
variable {R : State → State → Prop} (h : CoilFrame R)
include h

theorem CoilFrame.editCoil (c : CoilNo) (f : Coil → Coil) (s : State) : Leads R s (editCoil c f s) :=
  h.andThen (h.checkCoil c s) fun t => by
    split
    · exact h.here t
    · exact Leads.ok (h.coil t c _)

theorem CoilFrame.rewriteCoil (c : CoilNo) (f : Coil → Coil) (s : State) : Leads R s (rewriteCoil c f s) :=
  h.andThen (h.checkCoil c s) fun t => Leads.ok (h.coil t c _)

theorem CoilFrame.followPlan (c : CoilNo) (s : State) : Leads R s (followPlan c s) := by
  unfold Machine.followPlan
  split
  · refine h.andThen (h.checkPan _ s) fun t => ?_
    split
    · split
      · exact h.editCoil c _ t
      · exact h.here t
    · exact h.here t
  · exact h.here s

theorem CoilFrame.releaseCoils (g : Gen) (d : Bool) (s : State) : Leads R s (releaseCoils g d s) := by
  unfold Machine.releaseCoils
  split
  · exact h.forEach (fun c t => h.andThen (h.editCoil c _ t) (h.doIf _ (h.followPlan c))) _ s
  · exact h.here s

theorem CoilFrame.takeCoils (g : Gen) (legs : List Leg) (s : State) : Leads R s (takeCoils g legs s) :=
  h.forEach (fun c t => h.editCoil c _ t) _ s

theorem CoilFrame.moveCoil (plan : Plan) (c : CoilNo) (s : State) : Leads R s (moveCoil plan c s) := by
  refine h.andThen (h.checkCoil c s) fun t => ?_
  split
  · exact h.editCoil c _ t
  · split
    · exact h.editCoil c _ t
    · exact h.here t
  · split
    · exact h.editCoil c _ t
    · exact h.here t
  · exact h.here t

theorem CoilFrame.movePan (n : Slot) (s : State) : Leads R s (movePan n s) := by
  unfold Machine.movePan
  split
  · exact h.forEach (h.moveCoil _) _ s
  · exact h.here s

end

section
variable {R : State → State → Prop} (h : RecordFrame R)
include h

theorem RecordFrame.editPan (n : Slot) (f : Pan → Pan) (s : State) : Leads R s (editPan n f s) :=
  h.andThen (h.checkPan n s) fun t => by
    split
    · exact h.here t
    · exact Leads.ok (h.pan t n _)

theorem RecordFrame.rewritePan (n : Slot) (f : Pan → Pan) (s : State) : Leads R s (rewritePan n f s) :=
  h.andThen (h.checkPan n s) fun t => Leads.ok (h.pan t n _)

theorem RecordFrame.countEnergy (g : Gen) (s : State) : Leads R s (countEnergy g s) := by
  unfold Machine.countEnergy
  split
  · refine h.forEach (fun l t => ?_) _ s
    split
    · exact h.rewritePan _ _ t
    · exact h.here t
  · exact h.here s

theorem RecordFrame.releaseOrder (g : Gen) (d : Bool) (s : State) : Leads R s (releaseOrder g d s) :=
  h.andThen (h.checkOrder g s) fun t => h.andThen (h.countEnergy g t) (h.releaseCoils g d)

theorem RecordFrame.planPan (n : Slot) (s : State) : Leads R s (planPan n s) := by
  unfold Machine.planPan
  split
  · exact h.editPan n _ s
  · exact h.here s

theorem RecordFrame.stepSole (picks : List Pick) (s : State) : Leads R s (stepSole picks s) :=
  h.forEach (α := Pick) (fun p t => h.editPan p.slot _ t) _ s

theorem RecordFrame.stepShared (comps : List Component) (picks : List Pick) (s : State) :
    Leads R s (stepShared comps picks s) :=
  h.forEach (fun _ t => h.forEach (α := Pick) (fun _ u => h.editPan _ _ u) _ t) _ s

theorem RecordFrame.coilLeaves (c : CoilNo) (s : State) : Leads R s (coilLeaves c s) := by
  refine h.andThen (h.editCoil c _ s) fun t => ?_
  split
  · split
    · exact h.editPan _ _ t
    · exact h.here t
  · exact h.here t

end

/-! ## The tracker's steps -/

section
variable {R : State → State → Prop} (h : TrackFrame R)
include h

theorem TrackFrame.posts {α : Type} {f : State → α → State} (hf : ∀ s x, R s (f s x)) :
    ∀ (l : List α) (s : State), R s (l.foldl f s)
  | [], s => h.refl s
  | x :: xs, s => h.trans (hf s x) (TrackFrame.posts hf xs (f s x))

theorem TrackFrame.postPowers (g : Gen) (before s : State) : R s (postPowers g before s) :=
  h.posts (fun t n => by
    repeat' split
    · exact h.refl t
    · exact h.post t _
    · exact h.post t _
    · exact h.refl t) _ s

theorem TrackFrame.stepLost (picks : List Pick) (s : State) : Leads R s (stepLost picks s) :=
  h.forEach (fun n t => by
    split
    · exact h.andThen (h.editPan n _ t) fun u => Leads.ok (h.post u _)
    · exact h.here t) _ s

theorem TrackFrame.stepReturn : ∀ (l left : List Component) (s : State), Leads R s (stepReturn l left s)
  | [], _, s => Leads.ok (h.lists s _ s.priority s.partSeconds)
  | k :: rest, left, s => by
    unfold Machine.stepReturn
    split
    · exact h.andThen (h.editPan _ _ s) fun t => h.after (h.post t _) (TrackFrame.stepReturn rest left _)
    · exact TrackFrame.stepReturn rest _ s

theorem TrackFrame.stepCandidates (unpicked : List Component) (s : State) : Leads R s (stepCandidates unpicked s) :=
  h.after (h.lists s _ s.priority s.partSeconds) (h.stepReturn _ [] _)

theorem TrackFrame.confirmInto (n : Slot) (c : Candidate) (s : State) : Leads R s (confirmInto n c s) :=
  h.andThen (h.editPan n _ s) fun t => by
    refine Leads.ok ?_
    have hplaced : R t ((({ t with priority := t.priority ++ [n] } : State).setPartSecond n 0).postPan .panConfirmed
        ((({ t with priority := t.priority ++ [n] } : State).setPartSecond n 0).panId n)) :=
      h.trans (h.lists t t.candidates _ _) (h.post _ _)
    split
    · exact h.trans hplaced (h.post _ _)
    · exact hplaced

theorem TrackFrame.stepConfirm : ∀ (l kept : List Candidate) (s : State), Leads R s (stepConfirm l kept s)
  | [], _, s => Leads.ok (h.lists s _ s.priority s.partSeconds)
  | c :: rest, kept, s => by
    unfold Machine.stepConfirm
    split
    · split
      · exact h.andThen (h.confirmInto _ c s) (TrackFrame.stepConfirm rest kept)
      · split
        · exact TrackFrame.stepConfirm rest _ s
        · exact h.after (h.post s _) (TrackFrame.stepConfirm rest _ _)
    · exact TrackFrame.stepConfirm rest _ s

theorem TrackFrame.stepMoved (picks : List Pick) (s : State) : R s (stepMoved picks s) :=
  h.posts (fun t p => by
    split
    · exact h.refl t
    · exact h.post t _) _ s

theorem TrackFrame.windowPan (n : Slot) (s : State) : Leads R s (windowPan n s) := by
  unfold Machine.windowPan
  split
  · split
    · split
      · exact h.here s
      · refine h.andThen (h.editPan n _ s) fun t => Leads.ok ?_
        split
        · exact h.trans (h.post t _) (h.lists _ _ _ _)
        · exact h.post t _
    · exact h.editPan n _ s
  · exact h.here s

theorem TrackFrame.barredPan (n : Slot) (s : State) : Leads R s (barredPan n s) := by
  unfold Machine.barredPan
  simp only
  split
  · refine h.andThen (h.checkPan n s) fun t => h.andThen (h.forEach h.checkCoil _ t) fun u => ?_
    split
    · exact h.here u
    · exact h.andThen (h.editPan n _ u) fun v => Leads.ok (h.post v _)
  · exact h.here s

theorem TrackFrame.postShrunk (before s : State) : R s (postShrunk before s) :=
  h.posts (fun t n => by
    split
    · exact h.post t _
    · exact h.refl t) _ s

theorem TrackFrame.millisecondPans (l : List Slot) (b : Slot → Bool) (s : State) :
    Leads R s (Machine.forEach (fun n => Machine.editPan n (Pan.tick (b n))) l s) :=
  h.forEach (fun n t => h.editPan n _ t) l s

theorem TrackFrame.decrementTimer (n : Slot) (s : State) : Leads R s (decrementTimer n s) :=
  h.andThen (h.editPan n _ s) fun t => Leads.ok (h.lists t t.candidates t.priority _)

end

/-! ## Two relations -/

/-- Only coil and pan records and the table marks differ. -/
def RecordsOnly (s t : State) : Prop := t = { s with coils := t.coils, pans := t.pans, marks := t.marks }

theorem recordsOnly_frame : RecordFrame RecordsOnly where
  refl _ := rfl
  trans {s t u} h k := by
    obtain ⟨⟩ := s
    obtain ⟨⟩ := t
    obtain ⟨⟩ := u
    simp only [RecordsOnly, State.mk.injEq] at h k ⊢
    simp_all
  coil _ _ _ := rfl
  pan _ _ _ := rfl

/-- The desks, the accounts and the mapping are the same. -/
structure SameBooks (s t : State) : Prop where
  desks : t.desks = s.desks
  accounts : t.accounts = s.accounts
  phaseOf : t.phaseOf = s.phaseOf

theorem sameBooks_frame : TrackFrame SameBooks where
  refl _ := ⟨rfl, rfl, rfl⟩
  trans h k := ⟨k.desks.trans h.desks, k.accounts.trans h.accounts, k.phaseOf.trans h.phaseOf⟩
  coil _ _ _ := ⟨rfl, rfl, rfl⟩
  pan _ _ _ := ⟨rfl, rfl, rfl⟩
  post _ _ := ⟨State.desks_postEvent _ _, State.accounts_postEvent _ _, State.phaseOf_postEvent _ _⟩
  lists _ _ _ _ := ⟨rfl, rfl, rfl⟩

end Sys2Proof.Machine

/-! PROOFS. Every step keeps the budget: the load of each phase stays the sum of the charges and within the committed cap, and each
desk stays as its generator's state allows (R107, R108, R141). -/

namespace Sys2Proof.Machine

/-! ## Work that ends with the budget in order -/

/-- Both accounts are in order. -/
def AccountsOk (s : State) : Prop := ∀ p, AccountOk s p

/-- The desks that SAFE entry leaves are in order. -/
def DisabledOk (s : State) : Prop := ∀ g, (s.desk g).state = .disabled → DeskOk (s.desk g)

/-- The work ends in a state that meets the predicate, or has entered SAFE with the budget in order. -/
def Ends (Q : State → Prop) (f : Flow) : Prop := (∀ t, f = .ok t → Q t) ∧ ∀ v, f = .safe v → BudgetOk v

/-- The work keeps the budget in order. -/
def KeepsBudget (k : Op) : Prop := ∀ s, BudgetOk s → Ends BudgetOk (k s)

theorem BudgetOk.disabled {s : State} (h : BudgetOk s) : DisabledOk s := fun g _ => h.1 g

theorem Ends.ok {Q : State → Prop} {t : State} (h : Q t) : Ends Q (.ok t) := ⟨fun _ e => Flow.ok.inj e ▸ h, nofun⟩

theorem Ends.andThen {P Q : State → Prop} {f : Flow} {k : Op} (hf : Ends P f) (hk : ∀ t, P t → Ends Q (k t)) :
    Ends Q (f.andThen k) := by
  cases f with
  | ok t => exact hk t (hf.1 t rfl)
  | safe v => exact ⟨nofun, hf.2⟩

theorem Ends.mono {P Q : State → Prop} {f : Flow} (hf : Ends P f) (h : ∀ t, P t → Q t) : Ends Q f :=
  ⟨fun t e => h t (hf.1 t e), hf.2⟩

theorem Ends.state {f : Flow} (h : Ends BudgetOk f) : BudgetOk f.state := by
  cases f with
  | ok t => exact h.1 t rfl
  | safe v => exact h.2 v rfl

theorem KeepsBudget.andThen {f : Flow} {k : Op} (hf : Ends BudgetOk f) (hk : KeepsBudget k) : Ends BudgetOk (f.andThen k) :=
  hf.andThen hk

theorem KeepsBudget.forEach {α : Type} {work : α → Op} (h : ∀ x, KeepsBudget (work x)) : ∀ l, KeepsBudget (forEach work l)
  | [], _, hs => .ok hs
  | x :: xs, s, hs => (h x s hs).andThen (KeepsBudget.forEach h xs)

theorem KeepsBudget.doIf {k : Op} (b : Bool) (h : KeepsBudget k) : KeepsBudget (doIf b k) := by
  intro s hs
  unfold Machine.doIf
  split
  · exact h s hs
  · exact .ok hs

/-! ## Loads -/

theorem charge_eq (s : State) (g : Gen) : s.charge g = ((s.desk g).order.map (·.charge)).getD 0 := by
  unfold State.charge
  cases (s.desk g).order <;> rfl

theorem charge_setDesk (s : State) (g h : Gen) (d : Desk) :
    (s.setDesk g d).charge h = if h = g then (d.order.map (·.charge)).getD 0 else s.charge h := by
  rw [charge_eq, charge_eq, State.desk_setDesk]
  split <;> rfl

theorem sum_map_filter {α : Type} (p : α → Bool) (f : α → Nat) :
    ∀ l : List α, ((l.filter p).map f).sum = (l.map fun x => if p x = true then f x else 0).sum
  | [] => rfl
  | x :: xs => by
    by_cases hx : p x = true <;> simp [hx, sum_map_filter p f xs]

/-- A sum over some generators, as a sum over all. -/
theorem sum_gens (p : Gen → Prop) [DecidablePred p] (f : Gen → Nat) :
    ((allGens.filter fun g => decide (p g)).map f).sum = ∑ g : Gen, if p g then f g else 0 := by
  rw [sum_map_filter, Fin.sum_univ_def]
  simp only [decide_eq_true_eq]
  rfl

/-- A load is a sum over the generators. -/
theorem loadOf_eq_sum (s : State) (p : Phase) : s.loadOf p = ∑ g : Gen, if s.genPhase g = p then s.charge g else 0 :=
  sum_gens _ _

/-- The load of a phase but for one generator's share. -/
def State.loadBut (s : State) (g : Gen) (p : Phase) : Nat := ∑ h ∈ {g}ᶜ, if s.genPhase h = p then s.charge h else 0

theorem loadOf_eq_add (s : State) (g : Gen) (p : Phase) :
    s.loadOf p = (if s.genPhase g = p then s.charge g else 0) + s.loadBut g p := by
  rw [loadOf_eq_sum, Fintype.sum_eq_add_sum_compl g]
  rfl

theorem loadBut_congr {s t : State} {g : Gen} (hp : ∀ h, t.genPhase h = s.genPhase h) (hc : ∀ h, h ≠ g → t.charge h = s.charge h)
    (p : Phase) : t.loadBut g p = s.loadBut g p := by
  refine Finset.sum_congr rfl fun h hh => ?_
  rw [hp h, hc h (by simpa using hh)]

/-- What a build may take is the target less the other generators' charges. -/
theorem available_eq (s : State) (g : Gen) :
    s.available g = (s.account (s.genPhase g)).target - s.loadBut g (s.genPhase g) := by
  rw [State.available, sum_gens, Fintype.sum_eq_add_sum_compl g, if_neg (fun h => h.1 rfl), Nat.zero_add, State.loadBut]
  refine congrArg _ (Finset.sum_congr rfl fun h hh => ?_)
  have hne : h ≠ g := by simpa using hh
  simp only [hne, ne_eq, not_false_eq_true, true_and]

/-! ## The books kept -/

section
variable {s t : State}

theorem SameBooks.desk (h : SameBooks s t) (g : Gen) : t.desk g = s.desk g := by simp only [State.desk, h.desks]

theorem SameBooks.account (h : SameBooks s t) (p : Phase) : t.account p = s.account p := by simp only [State.account, h.accounts]

theorem SameBooks.genPhase (h : SameBooks s t) (g : Gen) : t.genPhase g = s.genPhase g := by simp only [State.genPhase, h.phaseOf]

theorem SameBooks.charge (h : SameBooks s t) (g : Gen) : t.charge g = s.charge g := by simp only [State.charge, h.desk]

theorem AccountOk.congr {p : Phase} (h : AccountOk s p) (ha : t.account p = s.account p) (hl : t.loadOf p = s.loadOf p) :
    AccountOk t p := by
  unfold AccountOk at *
  rwa [ha, hl]

theorem loadOf_congr (hp : ∀ g, t.genPhase g = s.genPhase g) (hc : ∀ g, t.charge g = s.charge g) (p : Phase) :
    t.loadOf p = s.loadOf p := by
  rw [loadOf_eq_sum, loadOf_eq_sum]
  exact Finset.sum_congr rfl fun g _ => by rw [hp, hc]

theorem SameBooks.accounts_ok (h : SameBooks s t) (ha : AccountsOk s) : AccountsOk t := fun p =>
  (ha p).congr (h.account p) (loadOf_congr h.genPhase h.charge p)

theorem SameBooks.budget (h : SameBooks s t) (hs : BudgetOk s) : BudgetOk t :=
  ⟨fun g => h.desk g ▸ hs.1 g, h.accounts_ok hs.2⟩

theorem SameBooks.disabled (h : SameBooks s t) (hs : DisabledOk s) : DisabledOk t := fun g hg => by
  rw [h.desk] at hg ⊢
  exact hs g hg

/-- A desk that is not in service holds no order. -/
theorem DeskOk.order_none {d : Desk} (h : DeskOk d) (hs : d.state.inService = false) : d.order = none := by
  obtain ⟨state, desk, repeats, order, _, lease, yield, collection, hold, _⟩ := d
  cases state <;> simp [GenState.inService] at hs <;> cases order <;> simp [DeskOk] at h ⊢

theorem deskOk_emptied_stopped (d : Desk) : DeskOk (d.emptied .stopped) := by
  simp [DeskOk, Desk.emptied]

theorem budgetOk_enterSafe (b : BadRecord) (h : DisabledOk s) : BudgetOk (enterSafe b s) := by
  have hdesk : ∀ g, DeskOk ((enterSafe b s).desk g) ∧ ((enterSafe b s).desk g).order = none := by
    intro g
    rw [desk_enterSafe, Desk.safeStopped]
    split
    · next hd => exact ⟨h g hd, (h g hd).order_none (by rw [hd]; rfl)⟩
    · exact ⟨deskOk_emptied_stopped _, rfl⟩
  have haccount := account_enterSafe b s
  generalize enterSafe b s = u at hdesk haccount ⊢
  have hcharge : ∀ g, u.charge g = 0 := fun g => by rw [State.charge, (hdesk g).2]
  exact ⟨fun g => (hdesk g).1, fun p => accountOk_of_idle hcharge (by rw [haccount]; rfl) (by rw [haccount]; rfl)
    (by rw [haccount]; rfl)⟩

theorem Leads.ends {f : Flow} (h : Leads SameBooks s f) (hs : DisabledOk s) : Ends (SameBooks s) f := by
  obtain ⟨t, ht, rfl | ⟨b, rfl⟩⟩ := h
  · exact .ok ht
  · exact ⟨nofun, fun v e => Flow.safe.inj e ▸ budgetOk_enterSafe b (ht.disabled hs)⟩

theorem keepsBudget_of_leads {k : Op} (h : ∀ s, Leads SameBooks s (k s)) : KeepsBudget k := fun s hs =>
  ((h s).ends hs.disabled).mono fun _ ht => ht.budget hs

end

theorem sameBooks_post (s : State) (e : Event) : SameBooks s (s.postEvent e) := sameBooks_frame.post s e

theorem accountsOk_setDesk {s : State} {g : Gen} {d : Desk} (ha : AccountsOk s) (ho : d.order = (s.desk g).order) :
    AccountsOk (s.setDesk g d) := by
  have hcharge : ∀ h, (s.setDesk g d).charge h = s.charge h := fun h => by
    rw [charge_setDesk, ho]
    split
    · next he => rw [he, charge_eq]
    · rfl
  exact fun p => (ha p).congr rfl (loadOf_congr (State.genPhase_setDesk s g d) hcharge p)

/-- The desk of one generator replaced by one in order, its charge kept. -/
theorem budgetOk_setDesk {s : State} {g : Gen} {d : Desk} (hd : ∀ h, h ≠ g → DeskOk (s.desk h)) (ha : AccountsOk s)
    (hok : DeskOk d) (ho : d.order = (s.desk g).order) : BudgetOk (s.setDesk g d) := by
  refine ⟨fun h => ?_, accountsOk_setDesk ha ho⟩
  rw [State.desk_setDesk]
  split
  · exact hok
  · next hne => exact hd h hne

/-! ## An order dropped -/

/-- An account whose load loses a charge stays in order. -/
theorem release_ok {a : Account} {load charge : Nat} (hl : a.load = charge + load) (hc : a.load ≤ a.committed)
    (ht : a.target ≤ a.committed) (hn : a.shed = none → a.target = a.committed) :
    (a.release charge).load = load ∧ (a.release charge).load ≤ (a.release charge).committed ∧
      (a.release charge).target ≤ (a.release charge).committed ∧
      ((a.release charge).shed = none → (a.release charge).target = (a.release charge).committed) ∧
      ((a.release charge).shed.isSome = true → (a.release charge).target < (a.release charge).load) := by
  unfold Account.release
  simp only
  split
  · next h => exact ⟨by simp only; omega, h.2, le_refl _, fun _ => rfl, nofun⟩
  · next h =>
    refine ⟨by simp only; omega, by simp only; omega, ht, hn, fun hsh => ?_⟩
    have := not_and.mp h hsh
    simp only
    omega

theorem desk_dropOrder (s : State) (g h : Gen) :
    (s.dropOrder g).desk h = if h = g then { s.desk g with order := none } else s.desk h :=
  State.desk_setDesk _ g _ h

theorem account_dropOrder (s : State) (g : Gen) (p : Phase) : (s.dropOrder g).account p =
    if p = s.genPhase g then (s.account p).release (s.charge g) else s.account p := by
  rw [State.dropOrder]
  simp only [State.account_setDesk, State.account_setAccount]
  split
  · next h => rw [h]
  · rfl

theorem accountsOk_dropOrder {s : State} (g : Gen) (ha : AccountsOk s) : AccountsOk (s.dropOrder g) := by
  intro p
  have hcharge : ∀ h, (s.dropOrder g).charge h = if h = g then 0 else s.charge h := by
    intro h
    rw [charge_eq, charge_eq, desk_dropOrder]
    split <;> rfl
  have hload := loadOf_eq_add s g p
  have hload' := loadOf_eq_add (s.dropOrder g) g p
  have hphase : ∀ h, (s.dropOrder g).genPhase h = s.genPhase h := fun _ => rfl
  rw [loadBut_congr hphase (fun h hh => by rw [hcharge, if_neg hh]), hphase, hcharge, if_pos rfl, ite_self, Nat.zero_add] at hload'
  obtain ⟨hl, hc, ht, hn, _⟩ := ha p
  by_cases hp : p = s.genPhase g
  · rw [if_pos hp.symm] at hload
    unfold AccountOk
    rw [account_dropOrder, if_pos hp, hload']
    exact release_ok (hl.trans hload) hc ht hn
  · rw [if_neg (Ne.symm hp), Nat.zero_add] at hload
    exact (ha p).congr (by rw [account_dropOrder, if_neg hp]) (hload'.trans hload.symm)

theorem sameBooks_dropOrderPosting (s : State) (g : Gen) : SameBooks (s.dropOrder g) (s.dropOrderPosting g) := by
  unfold State.dropOrderPosting
  split
  · exact sameBooks_post _ _
  · exact sameBooks_frame.refl _

theorem desk_dropOrderPosting (s : State) (g h : Gen) :
    (s.dropOrderPosting g).desk h = if h = g then { s.desk g with order := none } else s.desk h := by
  rw [(sameBooks_dropOrderPosting s g).desk, desk_dropOrder]

theorem accountsOk_dropOrderPosting {s : State} (g : Gen) (ha : AccountsOk s) : AccountsOk (s.dropOrderPosting g) :=
  (sameBooks_dropOrderPosting s g).accounts_ok (accountsOk_dropOrder g ha)

end Sys2Proof.Machine

/-! PROOFS. What a build charges is within what is available to it (R109, R132); builds, rebuilds, reports and stops keep the
budget (R107, R108, R114, R135, R141, R153). -/

namespace Sys2Proof.Machine

/-! ## What a build charges -/

theorem bestBy_mem {α : Type} {before : α → α → Bool} : ∀ {l : List α} {x : α}, bestBy before l = some x → x ∈ l
  | y :: ys, x, h => by
    unfold bestBy at h
    split at h
    · exact Option.some.inj h ▸ List.mem_cons_self
    · next z hz =>
      split at h
      · exact Option.some.inj h ▸ List.mem_cons_of_mem _ (bestBy_mem hz)
      · exact Option.some.inj h ▸ List.mem_cons_self

/-- None, one or two different slots. -/
def AtMostTwo (chosen : List Slot) : Prop := chosen = [] ∨ (∃ a, chosen = [a]) ∨ ∃ a b, a ≠ b ∧ chosen = [a, b]

theorem choose_atMostTwo (s : State) (cands : List Slot) : AtMostTwo (s.choose cands) := by
  unfold State.choose
  split
  · exact .inl rfl
  · next a _ =>
    split
    · exact .inr (.inl ⟨a, rfl⟩)
    · next b hb =>
      have hmem := bestBy_mem hb
      simp only [List.mem_filter, decide_eq_true_eq] at hmem
      exact .inr (.inr ⟨a, b, hmem.2.symm, rfl⟩)

/-- The power fitted to a slot. -/
def powerOf (fits : List Fit) (n : Slot) : Nat := ((fits.find? fun f => decide (f.slot = n)).map (·.power)).getD 0

/-- The power fitted is at most what is left. -/
theorem floorTen_min_le (demand available : Nat) : floorTen (min demand (min Config.maxLegPower available)) ≤ available := by
  unfold floorTen
  omega

/-- The powers of the chosen pans are within what is available. -/
theorem sum_powerOf_le (s : State) (g : Gen) {chosen : List Slot} (h : AtMostTwo chosen) :
    (chosen.map (powerOf (s.fits g chosen))).sum ≤ s.available g := by
  have hpair : ∀ (available : Nat) (a b : Slot) (d e : Nat), a ≠ b →
      powerOf (fitDemands available [(a, d), (b, e)]) a + powerOf (fitDemands available [(a, d), (b, e)]) b ≤ available := by
    intro available a b d e hab
    have h1 := floorTen_min_le d available
    have h2 := floorTen_min_le e (available - floorTen (min d (min Config.maxLegPower available)))
    simp only [fitDemands, powerOf, List.find?, decide_true, hab, decide_false, Option.map_some, Option.getD_some]
    omega
  rcases h with rfl | ⟨a, rfl⟩ | ⟨a, b, hab, rfl⟩
  · simp
  · simpa [State.fits, State.inPriorityOrder, fitDemands, powerOf] using floorTen_min_le (s.demand g a) (s.available g)
  · simp only [State.fits, State.inPriorityOrder, List.map_cons, List.map_nil, List.sum_cons, List.sum_nil, Nat.add_zero]
    split
    · rw [Nat.add_comm]
      exact hpair (s.available g) b a (s.demand g b) (s.demand g a) hab.symm
    · exact hpair (s.available g) a b (s.demand g a) (s.demand g b) hab

/-- The power of the leg of a chosen pan, or 0 where it has none. -/
theorem power_legFor (s : State) (g : Gen) (chosen : List Slot) (fits : List Fit) (n : Slot) :
    ((s.legFor g chosen fits n).map (·.power)).getD 0 = powerOf fits n := by
  unfold State.legFor powerOf
  simp only
  split
  · next h => rw [h]; rfl
  · rfl

/-- The charge of an order is what its pans were fitted. -/
theorem sum_power_legsFor (s : State) (g : Gen) (chosen : List Slot) (fits : List Fit) :
    ((s.legsFor g chosen fits).map (·.power)).sum = (chosen.map (powerOf fits)).sum := by
  have hsplit : ∀ l : List Leg, (((l.filter fun l => decide (l.inverter = .a)) ++ (l.filter fun l => decide (l.inverter = .b))).map
      (·.power)).sum = (l.map (·.power)).sum := by
    intro l
    induction l with
    | nil => rfl
    | cons x xs ih =>
      rw [List.map_append, List.sum_append] at ih ⊢
      cases hx : x.inverter <;> simp [hx] <;> omega
  have hlegs : ∀ l : List Slot, ((l.filterMap (s.legFor g chosen fits)).map (·.power)).sum = (l.map (powerOf fits)).sum := by
    intro l
    induction l with
    | nil => rfl
    | cons n ns ih =>
      have hn := power_legFor s g chosen fits n
      cases hleg : s.legFor g chosen fits n with
      | none =>
        rw [hleg] at hn
        simpa [hleg, ← hn] using ih
      | some leg =>
        rw [hleg] at hn
        simpa [hleg, ← hn] using ih
  rw [State.legsFor, hsplit, hlegs]

theorem SameBooks.available {s t : State} (h : SameBooks s t) (g : Gen) : t.available g = s.available g := by
  rw [available_eq, available_eq, h.genPhase, h.account, loadBut_congr h.genPhase fun k _ => h.charge k]

theorem desk_writeOrder (s : State) (g : Gen) (legs : List Leg) (h : Gen) : (s.writeOrder g legs).desk h = if h = g then
    { s.desk g with order := some ⟨nextNumber (s.alloc g).lastNumber, .built, legs, (legs.map (·.power)).sum, !s.marks.orders⟩ }
    else s.desk h :=
  State.desk_setDesk s g _ h

theorem account_writeOrder (s : State) (g : Gen) (legs : List Leg) (p : Phase) : (s.writeOrder g legs).account p =
    if p = s.genPhase g then { s.account p with load := (s.account p).load + (legs.map (·.power)).sum } else s.account p := by
  simp only [State.writeOrder, State.account_setMarks, State.account_setAccount, State.account_setAlloc, State.account_setDesk]
  split
  · next h => rw [h]
  · rfl

/-- An order written within what is available keeps the accounts in order. -/
theorem accountsOk_writeOrder {s : State} {g : Gen} {legs : List Leg} (ha : AccountsOk s) (ho : (s.desk g).order = none)
    (hc : (legs.map (·.power)).sum ≤ s.available g) : AccountsOk (s.writeOrder g legs) := by
  intro p
  have hphase : ∀ h, (s.writeOrder g legs).genPhase h = s.genPhase h := fun _ => rfl
  have hcharge : ∀ h, (s.writeOrder g legs).charge h = if h = g then (legs.map (·.power)).sum else s.charge h := by
    intro h
    rw [charge_eq, charge_eq, desk_writeOrder]
    split <;> rfl
  have hnone : s.charge g = 0 := by rw [charge_eq, ho]; rfl
  have hload := loadOf_eq_add s g p
  have hload' := loadOf_eq_add (s.writeOrder g legs) g p
  rw [loadBut_congr hphase (fun h hh => by rw [hcharge, if_neg hh]), hphase, hcharge, if_pos rfl] at hload'
  rw [hnone, ite_self, Nat.zero_add] at hload
  obtain ⟨hl, hcap, ht, hn, hsome⟩ := ha p
  by_cases hp : p = s.genPhase g
  · rw [if_pos hp.symm, ← hload, ← hl] at hload'
    rw [available_eq, ← hp, ← hload, ← hl] at hc
    unfold AccountOk
    rw [account_writeOrder, if_pos hp, hload']
    refine ⟨Nat.add_comm _ _, ?_, ht, hn, fun hsh => ?_⟩
    · simp only
      omega
    · have := hsome hsh
      simp only
      omega
  · rw [if_neg (Ne.symm hp), Nat.zero_add] at hload'
    exact (ha p).congr (by rw [account_writeOrder, if_neg hp]) (hload'.trans hload.symm)

/-- A build for a generator that held no order: its desk holds a BUILT one, the accounts are in order, the other desks are as
they were. -/
structure Built (g : Gen) (s t : State) : Prop where
  order : ∃ o, t.desk g = { s.desk g with order := some o } ∧ o.state = .built ∧ o.charge = (o.legs.map (·.power)).sum
  others : ∀ h, h ≠ g → t.desk h = s.desk h
  accounts : AccountsOk t

theorem Built.sameBooks {g : Gen} {s s' t : State} (h : Built g s t) (hs : SameBooks s' s) : Built g s' t where
  order := by rw [← hs.desk]; exact h.order
  others k hk := by rw [← hs.desk]; exact h.others k hk
  accounts := h.accounts

theorem Built.before {g : Gen} {s t u : State} (h : Built g s t) (ht : SameBooks t u) : Built g s u where
  order := by rw [ht.desk]; exact h.order
  others k hk := by rw [ht.desk]; exact h.others k hk
  accounts := ht.accounts_ok h.accounts

theorem built_writeOrder {s : State} {g : Gen} {legs : List Leg} (ha : AccountsOk s) (ho : (s.desk g).order = none)
    (hc : (legs.map (·.power)).sum ≤ s.available g) : Built g s (s.writeOrder g legs) where
  order := ⟨_, by rw [desk_writeOrder, if_pos rfl], rfl, rfl⟩
  others h hh := by rw [desk_writeOrder, if_neg hh]
  accounts := accountsOk_writeOrder ha ho hc

theorem Built.disabled {g : Gen} {s t : State} (h : Built g s t) (hd : DisabledOk s) (hg : (s.desk g).state ≠ .disabled) :
    DisabledOk t := by
  intro k hk
  by_cases hkg : k = g
  · subst hkg
    obtain ⟨o, hdesk, _⟩ := h.order
    rw [hdesk] at hk
    exact absurd hk hg
  · rw [h.others k hkg] at hk ⊢
    exact hd k hk

/-- A build for a generator that is not DISABLED and holds no order. -/
theorem buildOrder_ends {s : State} {g : Gen} (ha : AccountsOk s) (hd : DisabledOk s) (hg : (s.desk g).state ≠ .disabled)
    (ho : (s.desk g).order = none) : Ends (Built g s) (buildOrder g s) := by
  refine ((sameBooks_frame.readForBuild s).ends hd).andThen fun s1 h1 => ?_
  refine ((sameBooks_frame.doIf _ sameBooks_frame.checkLevels s1).ends (h1.disabled hd)).andThen fun s2 h2 => ?_
  have h12 := sameBooks_frame.trans h1 h2
  refine ((sameBooks_frame.forEach (fun n t => sameBooks_frame.editPan n _ t) _ s2).ends (h12.disabled hd)).andThen fun s3 h3 => ?_
  have h13 := sameBooks_frame.trans h12 h3
  have hcharge : ((s2.legsFor g (s1.choose (s1.candidatesFor g)) (s2.fits g (s1.choose (s1.candidatesFor g)))).map
      (·.power)).sum ≤ s3.available g := by
    rw [sum_power_legsFor, h3.available]
    exact sum_powerOf_le s2 g (choose_atMostTwo s1 _)
  have hbuilt := built_writeOrder (h13.accounts_ok ha) (by rw [h13.desk, ho]) hcharge
  have hdisabled := hbuilt.disabled (h13.disabled hd) (by rw [h13.desk]; exact hg)
  refine ((sameBooks_frame.takeCoils g _ _).ends hdisabled).andThen fun s4 h4 => .ok ?_
  exact ((hbuilt.before h4).before (sameBooks_frame.postPowers g s2 s4)).sameBooks h13

/-! ## Desks in order, by what they hold -/

section
variable {d : Desk} {o : Order}

theorem DeskOk.of_built (h : DeskOk d) (ho : d.order = some o) (hb : o.state = .built) : d.state = .joined ∧
    (∃ e, d.desk = .complete e) ∧ d.lease = none ∧ d.yield = none ∧ d.hold = none := by
  obtain ⟨state, desk, repeats, order, _, lease, yield, collection, hold, _⟩ := d
  subst ho
  cases state <;> cases desk <;> simp_all [DeskOk]

theorem DeskOk.of_issued (h : DeskOk d) (ho : d.order = some o) (hb : o.state ≠ .built) :
    (d.state = .ordered ∨ d.state = .yielding) ∧ d.desk = .empty ∧ d.repeats = 0 ∧ d.collection = none ∧ d.hold = none ∧
      o.charge = (o.legs.map (·.power)).sum := by
  obtain ⟨state, desk, repeats, order, _, lease, yield, collection, hold, _⟩ := d
  subst ho
  cases state <;> cases desk <;> simp_all [DeskOk]

theorem DeskOk.of_joined (h : DeskOk d) (hs : d.state = .joined) : d.lease = none ∧ d.yield = none ∧ d.hold = none := by
  obtain ⟨state, desk, repeats, order, _, lease, yield, collection, hold, _⟩ := d
  subst hs
  simp_all [DeskOk]

theorem DeskOk.of_waiting {e : Byte} (h : DeskOk d) (hw : d.desk = .waiting e) : d.state = .joined ∧ d.order = none ∧
    d.lease = none ∧ d.yield = none ∧ d.hold = none := by
  obtain ⟨state, desk, repeats, order, _, lease, yield, collection, hold, _⟩ := d
  subst hw
  cases state <;> cases order <;> simp_all [DeskOk]

theorem DeskOk.of_complete {e : Byte} (h : DeskOk d) (hw : d.desk = .complete e) : d.state = .joined ∧
    (∃ o, d.order = some o ∧ o.state = .built ∧ o.charge = (o.legs.map (·.power)).sum) ∧
    d.lease = none ∧ d.yield = none ∧ d.hold = none := by
  obtain ⟨state, desk, repeats, order, _, lease, yield, collection, hold, _⟩ := d
  subst hw
  cases state <;> cases order <;> simp_all [DeskOk]

theorem deskOk_vacant (hs : d.state = .absent ∨ d.state = .stopped ∨ d.state = .disabled ∨ d.state = .joined)
    (ho : d.order = none) (hd : d.desk = .empty) (hr : d.repeats = 0) (hl : d.lease = none) (hy : d.yield = none)
    (hc : d.collection = none) (hh : d.hold.isSome = true → d.state = .stopped) : DeskOk d := by
  obtain ⟨state, desk, repeats, order, _, lease, yield, collection, hold, _⟩ := d
  subst ho hd hr hl hy hc
  rcases hs with rfl | rfl | rfl | rfl <;> simp_all [DeskOk]

theorem deskOk_waiting {e : Byte} (hs : d.state = .joined) (ho : d.order = none) (hd : d.desk = .waiting e) (hl : d.lease = none)
    (hy : d.yield = none) (hc : d.collection = none) (hh : d.hold = none) : DeskOk d := by
  simp [DeskOk, hs, ho, hd, hl, hy, hc, hh]

theorem deskOk_complete {e : Byte} (hs : d.state = .joined) (ho : d.order = some o) (hb : o.state = .built)
    (hd : d.desk = .complete e) (hl : d.lease = none) (hy : d.yield = none) (hh : d.hold = none)
    (hc : o.charge = (o.legs.map (·.power)).sum) : DeskOk d := by
  simp [DeskOk, hs, ho, hb, hd, hl, hy, hh, hc]

theorem deskOk_issued (hs : d.state = .ordered ∨ d.state = .yielding) (ho : d.order = some o) (hb : o.state ≠ .built)
    (hd : d.desk = .empty) (hr : d.repeats = 0) (hy : d.yield.isSome = true → d.state = .yielding) (hcol : d.collection = none)
    (hh : d.hold = none) (hc : o.charge = (o.legs.map (·.power)).sum) : DeskOk d := by
  rcases hs with hs | hs <;> simp_all [DeskOk]

end

/-! ## Builds, rebuilds and reports -/

/-- A desk that waits, or waited when its order was taken away, builds. -/
theorem buildForWaiting_ends {s : State} {g : Gen} (entry : Byte) (ha : AccountsOk s) (hd : ∀ h, h ≠ g → DeskOk (s.desk h))
    (hs : (s.desk g).state = .joined) (ho : (s.desk g).order = none) (hl : (s.desk g).lease = none)
    (hy : (s.desk g).yield = none) (hh : (s.desk g).hold = none) : Ends BudgetOk (buildForWaiting g entry s) := by
  have hdis : DisabledOk s := fun h hst => by
    by_cases hg : h = g
    · rw [hg, hs] at hst
      cases hst
    · exact hd h hg
  refine (buildOrder_ends ha hdis (by simp [hs]) ho).andThen fun t ht => .ok ?_
  obtain ⟨o, hdesk, hb, hc⟩ := ht.order
  refine budgetOk_setDesk (fun h hg => ht.others h hg ▸ hd h hg) ht.accounts ?_ rfl
  rw [hdesk]
  exact deskOk_complete hs rfl hb rfl hl hy hh hc

theorem retestDesk_keeps (g : Gen) : KeepsBudget (retestDesk g) := by
  intro s hs
  unfold retestDesk
  split
  · next e he =>
    split
    · exact .ok hs
    · obtain ⟨hst, ho, hl, hy, hh⟩ := (hs.1 g).of_waiting he
      exact buildForWaiting_ends e hs.2 (fun h _ => hs.1 h) hst ho hl hy hh
  · exact .ok hs

theorem retestDesks_keeps : KeepsBudget retestDesks := KeepsBudget.forEach retestDesk_keeps _

theorem rebuild_ends {s : State} {g : Gen} {o : Order} (hs : BudgetOk s) (ho : (s.desk g).order = some o) (hb : o.state = .built) :
    Ends BudgetOk (rebuild g s) := by
  obtain ⟨hst, _, hl, hy, hh⟩ := (hs.1 g).of_built ho hb
  refine ((sameBooks_frame.releaseCoils g false s).ends hs.disabled).andThen fun t ht => ?_
  have hbudget := ht.budget hs
  have hdesk : (t.dropOrderPosting g).desk g = { s.desk g with order := none } := by
    rw [desk_dropOrderPosting, if_pos rfl, ht.desk]
  have hothers : ∀ h, h ≠ g → DeskOk ((t.dropOrderPosting g).desk h) := fun h hg => by
    rw [desk_dropOrderPosting, if_neg hg]
    exact hbudget.1 h
  have haccounts := accountsOk_dropOrderPosting g hbudget.2
  simp only
  split
  · refine .ok (budgetOk_setDesk hothers haccounts ?_ rfl)
    rw [hdesk]
    exact deskOk_waiting hst rfl rfl hl hy rfl hh
  · exact buildForWaiting_ends _ haccounts hothers (by rw [hdesk]; exact hst) (by rw [hdesk]) (by rw [hdesk]; exact hl)
      (by rw [hdesk]; exact hy) (by rw [hdesk]; exact hh)

theorem requestYield_ok {s : State} {g : Gen} {o : Order} (hs : BudgetOk s) (ho : (s.desk g).order = some o)
    (hi : o.state ≠ .built) : BudgetOk (s.requestYield g) := by
  unfold State.requestYield
  split
  · obtain ⟨_, hd, hr, hcol, hh, hc⟩ := (hs.1 g).of_issued ho hi
    exact budgetOk_setDesk (fun h _ => hs.1 h) hs.2 (deskOk_issued (.inr rfl) ho hi hd hr (fun _ => rfl) hcol hh hc) rfl
  · exact hs

theorem reportDown_keeps (g : Gen) : KeepsBudget (reportDown g) := by
  intro s hs
  refine ((sameBooks_frame.checkOrder g s).ends hs.disabled).andThen fun t ht => ?_
  have hbudget := ht.budget hs
  split
  · exact .ok hbudget
  · next o ho =>
    split
    · next i hi => exact .ok (requestYield_ok hbudget ho (by simp [hi]))
    · next hb => exact rebuild_ends hbudget ho hb

theorem reportAll_keeps (gs : List Gen) : KeepsBudget (reportAll gs) := KeepsBudget.forEach reportDown_keeps _

/-! ## Stops -/

/-- Whether or not there was an order to drop, the desk holds none afterwards. -/
theorem desk_dropOrderIf (s : State) (g h : Gen) : (if (s.desk g).order.isSome then s.dropOrder g else s).desk h =
    if h = g then { s.desk g with order := none } else s.desk h := by
  split
  · exact desk_dropOrder s g h
  · next hn =>
    split
    · next hk =>
      subst hk
      have hnone : (s.desk h).order = none := Option.not_isSome_iff_eq_none.mp hn
      cases hd : s.desk h
      rw [hd] at hnone
      cases hnone
      rfl
    · rfl

theorem desk_finishStop (s : State) (g : Gen) (cause : StopCause) (h : Gen) : (s.finishStop g cause).desk h = if h = g then
    { s.desk g with
      state := if cause = .disable then .disabled else .stopped
      desk := .empty, repeats := 0, order := none, lease := none, yield := none, collection := none
      hold := if cause = .disable then none else some Config.stopHold
      holdEnd := if cause = .disable then (s.desk g).holdEnd else cause.holdEnd } else s.desk h := by
  unfold State.finishStop
  simp only
  split
  all_goals
    simp only [State.postStopped, State.postShed, State.desk_postEvent, State.desk_setDesk, State.emptyMemory,
      State.desk_setAlloc, desk_dropOrderIf, if_true]
    by_cases hg : h = g
    · simp only [hg, if_true]
      split <;> rfl
    · simp only [hg, if_false]

theorem deskOk_finishStop (s : State) (g : Gen) (cause : StopCause) : DeskOk ((s.finishStop g cause).desk g) := by
  rw [desk_finishStop, if_pos rfl]
  by_cases h : cause = .disable
  · exact deskOk_vacant (by simp [h]) rfl rfl rfl rfl rfl rfl (by simp [h])
  · exact deskOk_vacant (by simp [h]) rfl rfl rfl rfl rfl rfl (by simp [h])

/-- A stop's last steps leave the accounts and the mapping as the order's release does. -/
theorem books_finishStop (s : State) (g : Gen) (cause : StopCause) :
    (s.finishStop g cause).accounts = (if (s.desk g).order.isSome then s.dropOrder g else s).accounts ∧
      (s.finishStop g cause).phaseOf = s.phaseOf := by
  unfold State.finishStop
  simp only
  generalize hu : (if (s.desk g).order.isSome then s.dropOrder g else s) = u
  have hphase : u.phaseOf = s.phaseOf := by
    rw [← hu]
    split <;> rfl
  split <;> simp [State.postStopped, State.postShed, State.emptyMemory, hphase]

theorem accountsOk_finishStop {s : State} (g : Gen) (cause : StopCause) (ha : AccountsOk s) : AccountsOk (s.finishStop g cause) := by
  obtain ⟨haccounts, hphase⟩ := books_finishStop s g cause
  have hdropped : AccountsOk (if (s.desk g).order.isSome then s.dropOrder g else s) := by
    split
    · exact accountsOk_dropOrder g ha
    · exact ha
  have hcharge : ∀ h, (s.finishStop g cause).charge h = (if (s.desk g).order.isSome then s.dropOrder g else s).charge h := by
    intro h
    rw [charge_eq, charge_eq, desk_finishStop, desk_dropOrderIf]
    split <;> rfl
  refine fun p => (hdropped p).congr ?_ (loadOf_congr (fun h => ?_) hcharge p)
  · simp only [State.account, haccounts]
  · simp only [State.genPhase, hphase]
    split <;> rfl

/-- A stop ends with the budget in order, whatever the desk of the generator stopped. -/
theorem stopGen_ends {s : State} (g : Gen) (cause : StopCause) (ha : AccountsOk s) (hd : ∀ h, h ≠ g → DeskOk (s.desk h)) :
    Ends BudgetOk (stopGen g cause s) := by
  have hhalted : AccountsOk (s.setDesk g { s.desk g with state := .stopped }) := accountsOk_setDesk ha rfl
  have hdesk : ∀ h, h ≠ g → (s.setDesk g { s.desk g with state := .stopped }).desk h = s.desk h := fun h hg => by
    rw [State.desk_setDesk, if_neg hg]
  have hdis : DisabledOk (s.setDesk g { s.desk g with state := .stopped }) := fun h hst => by
    by_cases hg : h = g
    · subst hg
      rw [State.desk_setDesk_self] at hst
      cases hst
    · rw [hdesk h hg]
      exact hd h hg
  refine ((sameBooks_frame.releaseOrder g _ _).ends hdis).andThen fun t ht => .ok ⟨fun h => ?_, ?_⟩
  · by_cases hg : h = g
    · subst hg
      exact deskOk_finishStop t h cause
    · rw [desk_finishStop, if_neg hg, ht.desk, hdesk h hg]
      exact hd h hg
  · exact accountsOk_finishStop g cause (ht.accounts_ok hhalted)

theorem stopGen_keeps (g : Gen) (cause : StopCause) : KeepsBudget (stopGen g cause) := fun _ hs =>
  stopGen_ends g cause hs.2 fun h _ => hs.1 h

end Sys2Proof.Machine

/-! PROOFS. Each request and each expiry keeps the budget in order (R107, R108, R141), and so does every step. -/

namespace Sys2Proof.Machine

/-! ## Shared work -/

theorem keepsBudget_reports {k : Op} (h : ∀ s, Leads SameBooks s (k s)) (gs : State → List Gen) :
    KeepsBudget fun s => (k s).andThen fun t => reportAll (gs t) t := fun s hs =>
  (keepsBudget_of_leads h s hs).andThen fun t ht => reportAll_keeps (gs t) t ht

theorem editPan_keeps (n : Slot) (f : Pan → Pan) : KeepsBudget (editPan n f) := keepsBudget_of_leads (sameBooks_frame.editPan n f)

theorem editCoil_keeps (c : CoilNo) (f : Coil → Coil) : KeepsBudget (editCoil c f) :=
  keepsBudget_of_leads (sameBooks_frame.editCoil c f)

theorem replanFrom_keeps : ∀ (l : List Slot) (noted : List Gen), KeepsBudget (replanFrom l noted)
  | [], noted => reportAll_keeps noted
  | n :: rest, _ => fun s hs => (keepsBudget_of_leads (sameBooks_frame.planPan n) s hs).andThen fun t ht =>
      (keepsBudget_of_leads (sameBooks_frame.movePan n) t ht).andThen (replanFrom_keeps rest _)

theorem replanPass_keeps : KeepsBudget replanPass := replanFrom_keeps _ _

theorem completeTimer_keeps (n : Slot) : KeepsBudget (completeTimer n) := fun s hs =>
  (editPan_keeps n _ s hs).andThen fun t ht => reportAll_keeps _ _ ((sameBooks_post t _).budget ht)

theorem endBoost_keeps (n : Slot) : KeepsBudget (endBoost n) := fun s hs =>
  (editPan_keeps n _ s hs).andThen fun t ht => reportAll_keeps _ _ ((sameBooks_post t _).budget ht)

theorem completeIfDue_keeps (n : Slot) : KeepsBudget (completeIfDue n) := by
  intro s hs
  unfold completeIfDue
  split
  · exact completeTimer_keeps n s hs
  · exact .ok hs

theorem endBoostIfDue_keeps (n : Slot) : KeepsBudget (endBoostIfDue n) := by
  intro s hs
  unfold endBoostIfDue
  split
  · exact endBoost_keeps n s hs
  · exact .ok hs

theorem dueCompletions_keeps (before : State) : KeepsBudget (dueCompletions before) :=
  KeepsBudget.forEach (fun n s hs => by
    split
    · exact .ok hs
    · exact (completeIfDue_keeps n s hs).andThen (endBoostIfDue_keeps n)) _

theorem settle_keeps (before : State) : KeepsBudget (settle before) := fun s hs =>
  (dueCompletions_keeps before s hs).andThen retestDesks_keeps

/-! ## The evaluation -/

theorem stepOwners_keeps : KeepsBudget stepOwners := fun s hs =>
  (keepsBudget_of_leads (sameBooks_frame.forEach (fun c => sameBooks_frame.editCoil c _) _) s hs).andThen fun t ht =>
    (keepsBudget_of_leads (sameBooks_frame.forEach (fun c u => by
      split
      · exact sameBooks_frame.editCoil c _ u
      · exact sameBooks_frame.here u) _) t ht).andThen (reportAll_keeps _)

theorem stepWindowsFrom_keeps : ∀ (l : List Slot) (gs : List Gen), KeepsBudget (stepWindowsFrom l gs)
  | [], gs => reportAll_keeps gs
  | n :: rest, _ => fun s hs => (keepsBudget_of_leads (sameBooks_frame.windowPan n) s hs).andThen fun t ht =>
      stepWindowsFrom_keeps rest _ t ht

theorem barredFrom_keeps : ∀ (l : List Slot) (gs : List Gen), KeepsBudget (barredFrom l gs)
  | [], gs => reportAll_keeps gs
  | n :: rest, _ => fun s hs => (keepsBudget_of_leads (sameBooks_frame.barredPan n) s hs).andThen fun t ht =>
      barredFrom_keeps rest _ t ht

theorem evaluate_keeps : KeepsBudget evaluate := by
  have h := sameBooks_frame
  intro s hs
  refine (keepsBudget_of_leads (h.forEach h.checkCoil _) s hs).andThen fun s1 h1 => ?_
  refine (keepsBudget_of_leads (h.forEach h.checkPan _) s1 h1).andThen fun s2 h2 => ?_
  refine (keepsBudget_of_leads (h.stepSole _) s2 h2).andThen fun s3 h3 => ?_
  refine (keepsBudget_of_leads (h.stepShared _ _) s3 h3).andThen fun s4 h4 => ?_
  refine (keepsBudget_of_leads (h.stepLost _) s4 h4).andThen fun s5 h5 => ?_
  refine (keepsBudget_of_leads (h.stepCandidates _) s5 h5).andThen fun s6 h6 => ?_
  refine (keepsBudget_of_leads (h.stepConfirm _ _) s6 h6).andThen fun s7 h7 => ?_
  refine (stepOwners_keeps s7 h7).andThen fun s8 h8 => ?_
  refine (stepWindowsFrom_keeps _ _ _ ((h.stepMoved _ s8).budget h8)).andThen fun s9 h9 => ?_
  exact (replanPass_keeps s9 h9).andThen (barredFrom_keeps _ _)

/-! ## The panel's requests -/

theorem setLevel_keeps (n : Slot) (level : Fin 14) : KeepsBudget (setLevel n level) := by
  intro s hs
  refine (editPan_keeps n _ s hs).andThen fun t ht => Ends.andThen (P := BudgetOk) ?_ (settle_keeps s)
  split
  · exact .ok ⟨ht.1, ht.2⟩
  · split
    · exact reportAll_keeps _ t ht
    · exact .ok ht

theorem setTimer_keeps (n : Slot) (value : Option Nat) (a h : Bool) : KeepsBudget (setTimer n value a h) := fun s hs =>
  (keepsBudget_of_leads (sameBooks_frame.rewritePan n _) s hs).andThen fun t ht =>
    (completeIfDue_keeps n _ (show BudgetOk (t.setPartSecond n 0) from ⟨ht.1, ht.2⟩)).andThen (settle_keeps s)

theorem holdFrom_keeps : ∀ (slots : List Slot) (gs : List Gen), KeepsBudget (holdFrom slots gs)
  | [], gs => reportAll_keeps gs
  | n :: rest, _ => fun s hs => (editPan_keeps n _ s hs).andThen (holdFrom_keeps rest _)

theorem holdSlots_keeps (slots : List Slot) : KeepsBudget (holdSlots slots) := fun s hs =>
  (holdFrom_keeps _ [] s hs).andThen (settle_keeps s)

theorem resumeSlots_keeps (slots : List Slot) : KeepsBudget (resumeSlots slots) := fun s hs =>
  (KeepsBudget.forEach (fun n => editPan_keeps n _) _ s hs).andThen fun t ht =>
    settle_keeps s _ (show BudgetOk (t.raiseAll _) from ⟨ht.1, ht.2⟩)

theorem stopAll_keeps : KeepsBudget stopAll := fun s hs =>
  (KeepsBudget.forEach (fun n => editPan_keeps n _) _ s hs).andThen fun t ht =>
    (KeepsBudget.forEach (fun g => stopGen_keeps g .stopAll) _ t ht).andThen fun u hu =>
      (KeepsBudget.doIf _ replanPass_keeps u hu).andThen (settle_keeps s)

/-! ## A generator's home coils -/

theorem coilsLeave_keeps (g : Gen) : KeepsBudget (coilsLeave g) := fun s hs =>
  (keepsBudget_of_leads (sameBooks_frame.forEach sameBooks_frame.coilLeaves _) s hs).andThen fun t ht =>
    (KeepsBudget.forEach (fun c => editCoil_keeps c _) _ _ ((sameBooks_frame.postShrunk s t).budget ht)).andThen (reportAll_keeps _)

theorem discardPartial_sameBooks (s : State) (g : Gen) : SameBooks s (s.discardPartial g) := by
  unfold State.discardPartial
  split
  · exact ⟨rfl, rfl, rfl⟩
  · exact sameBooks_frame.refl s

theorem disableGen_keeps (g : Gen) : KeepsBudget (disableGen g) := by
  intro s hs
  have hquiet := (discardPartial_sameBooks s g).budget hs
  have hdesk := (discardPartial_sameBooks s g).desk g
  unfold disableGen
  split
  · exact .ok hs
  · next ha =>
    refine .ok ((sameBooks_post _ _).budget (budgetOk_setDesk (fun h _ => hquiet.1 h) hquiet.2 ?_ (by rw [hdesk])))
    have hok := hs.1 g
    have hnone := hok.order_none (by rw [ha]; rfl)
    generalize s.desk g = d at *
    obtain ⟨state, desk, repeats, order, _, lease, yield, collection, hold, _⟩ := d
    subst ha hnone
    cases desk <;> simp_all [DeskOk]
  · exact (stopGen_keeps g .disable _ hquiet).andThen (coilsLeave_keeps g)

theorem enableGen_keeps (g : Gen) : KeepsBudget (enableGen g) := by
  intro s hs
  unfold enableGen
  split
  · next hd =>
    refine KeepsBudget.forEach (fun c => editCoil_keeps c _) _ _ (budgetOk_setDesk (fun h _ => hs.1 h) hs.2 ?_ rfl)
    have hok := hs.1 g
    have hnone := hok.order_none (by rw [hd]; rfl)
    generalize s.desk g = d at *
    obtain ⟨state, desk, repeats, order, _, lease, yield, collection, hold, _⟩ := d
    subst hd hnone
    cases desk <;> simp_all [DeskOk]
  · exact .ok hs

theorem enableGens_keeps (enable disable : List Gen) : KeepsBudget (enableGens enable disable) := by
  intro s hs
  refine Ends.andThen (P := BudgetOk) (KeepsBudget.forEach (fun g t ht => ?_) _ s hs) fun t ht =>
    (KeepsBudget.doIf _ evaluate_keeps t ht).andThen (settle_keeps s)
  split
  · exact disableGen_keeps g t ht
  · split
    · exact enableGen_keeps g t ht
    · exact .ok ht

/-! ## The requests of a generator -/

theorem applyEntries_keeps (g : Gen) : ∀ (es : List SweepEntry) (k : Nat) (gs : List Gen) (s : State), BudgetOk s →
    Ends BudgetOk (applyEntries g es k gs s).flow
  | [], _, _, _, hs => .ok hs
  | e :: rest, k, gs, s, hs => by
    have hcheck := keepsBudget_of_leads (sameBooks_frame.checkCoil e.coil) s hs
    have happly : Ends BudgetOk (applyEntry g e s) :=
      (keepsBudget_of_leads (sameBooks_frame.rewriteCoil e.coil _) s hs).andThen fun t ht => by
        split
        · exact .ok ((sameBooks_post t _).budget ht)
        · exact .ok ht
    unfold applyEntries
    split
    · next t ht => exact ⟨nofun, fun v hv => hcheck.2 v (ht.trans hv)⟩
    · next t ht =>
      cases checkCoil_ok ht
      split
      · simp only
        split
        · next v hv => exact ⟨nofun, fun w hw => happly.2 w (hv.trans hw)⟩
        · next u hu => exact applyEntries_keeps g rest k _ u (happly.1 u hu)
      · exact applyEntries_keeps g rest _ gs s hs

theorem sweep_keeps (g : Gen) (es : List SweepEntry) (s : State) (hs : BudgetOk s) : Ends BudgetOk (sweep g es s).1 :=
  (applyEntries_keeps g es 0 [] s hs).andThen fun t ht => (reportAll_keeps _ t ht).andThen fun u hu =>
    (evaluate_keeps u hu).andThen (settle_keeps s)

/-- HELLO's desk may hold no order in a state of service until its coils are back. -/
theorem hello_ends (g : Gen) {s : State} (hs : BudgetOk s) (hg : (s.desk g).state ≠ .disabled) : Ends BudgetOk (hello g s) := by
  refine ((sameBooks_frame.releaseOrder g false s).ends hs.disabled).andThen fun t ht => ?_
  have hbudget := ht.budget hs
  have hdrop : AccountsOk (if (t.desk g).order.isSome then t.dropOrderPosting g else t) ∧
      ∀ h, (if (t.desk g).order.isSome then t.dropOrderPosting g else t).desk h =
        if h = g then { t.desk g with order := none } else t.desk h := by
    refine ⟨?_, fun h => ?_⟩
    · split
      · exact accountsOk_dropOrderPosting g hbudget.2
      · exact hbudget.2
    · rw [← desk_dropOrderIf]
      split
      · exact (sameBooks_dropOrderPosting t g).desk h
      · rfl
  obtain ⟨haccounts, hdesk⟩ := hdrop
  generalize (if (t.desk g).order.isSome then t.dropOrderPosting g else t) = u at haccounts hdesk
  have hvacant : ∀ st, AccountsOk ((u.emptyMemory g).setDesk g { ((u.emptyMemory g).desk g).emptied st with lastConfirmed := 0 }) :=
    fun st => accountsOk_setDesk (s := u.emptyMemory g) haccounts (by
      simp only [Desk.emptied, State.emptyMemory, State.desk_setAlloc, hdesk, if_true])
  have hothers : ∀ st h, h ≠ g → DeskOk (((u.emptyMemory g).setDesk g
      { ((u.emptyMemory g).desk g).emptied st with lastConfirmed := 0 }).desk h) := fun st h hh => by
    simp only [State.desk_setDesk, State.emptyMemory, State.desk_setAlloc, hdesk, hh, if_false]
    exact hbudget.1 h
  simp only
  generalize hw : (u.emptyMemory g).setDesk g
    { ((u.emptyMemory g).desk g).emptied (s.desk g).state with lastConfirmed := 0 } = w
  have hwdesk : ∃ d : Desk, w.desk g = { d.emptied (s.desk g).state with lastConfirmed := 0 } :=
    ⟨_, by rw [← hw, State.desk_setDesk_self]⟩
  have hwdis : DisabledOk w := fun h hst => by
    by_cases hh : h = g
    · obtain ⟨d, hd⟩ := hwdesk
      rw [hh, hd] at hst
      exact absurd hst hg
    · rw [← hw]
      exact hothers _ h hh
  refine ((sameBooks_frame.forEach (fun c => sameBooks_frame.editCoil c _) _ w).ends hwdis).andThen fun x hx => ?_
  have hjoined : BudgetOk (x.setDesk g { x.desk g with state := .joined }) := by
    refine budgetOk_setDesk (fun h hh => ?_) (hx.accounts_ok (hw ▸ hvacant _)) ?_ rfl
    · rw [hx.desk, ← hw]
      exact hothers _ h hh
    · obtain ⟨d, hd⟩ := hwdesk
      rw [hx.desk, hd]
      exact deskOk_vacant (.inr (.inr (.inr rfl))) rfl rfl rfl rfl rfl rfl nofun
  exact (KeepsBudget.doIf _ replanPass_keeps _ ((sameBooks_post _ _).budget hjoined)).andThen (settle_keeps s)

/-- The delivery of a BUILT order. -/
theorem deliver_ends {s : State} {g : Gen} {o : Order} (ha : AccountsOk s) (hd : ∀ h, h ≠ g → DeskOk (s.desk h))
    (hs : (s.desk g).state = .joined) (ho : (s.desk g).order = some o) (hy : (s.desk g).yield = none) (hh : (s.desk g).hold = none)
    (hc : o.charge = (o.legs.map (·.power)).sum) : Ends BudgetOk (deliver g s) := by
  have hdis : DisabledOk s := fun h hst => by
    by_cases hg : h = g
    · rw [hg, hs] at hst
      cases hst
    · exact hd h hg
  refine ((sameBooks_frame.checkOrder g s).ends hdis).andThen fun t ht => .ok ?_
  refine ⟨fun h => ?_, fun p => ((ht.accounts_ok ha) p).congr rfl (loadOf_congr (State.genPhase_setDesk _ _ _) (fun h => ?_) p)⟩
  · rw [State.desk_setDesk]
    split
    · exact deskOk_issued (o := { o with state := .issued t.now }) (.inl rfl) (by rw [ht.desk, ho]; rfl) nofun rfl rfl
        (by rw [ht.desk, hy]; nofun) rfl (by rw [ht.desk]; exact hh) hc
    · next hg =>
      rw [ht.desk]
      exact hd h hg
  · rw [charge_setDesk]
    split
    · next hg =>
      rw [charge_eq, hg, ht.desk, ho]
      rfl
    · rfl

theorem delivery_keeps (g : Gen) (n : Byte) {s : State} (hs : BudgetOk s) (hst : (s.desk g).state = .joined) :
    BudgetOk (delivery g n s).1 := by
  obtain ⟨hl, hy, hh⟩ := (hs.1 g).of_joined hst
  have hothers : ∀ h, h ≠ g → DeskOk (s.desk h) := fun h _ => hs.1 h
  have hwaits : ∀ entry k, (s.desk g).order = none → (s.desk g).collection = none → BudgetOk (s.waitAt g entry k).1 :=
    fun entry k ho hc => budgetOk_setDesk hothers hs.2 (deskOk_waiting hst ho rfl hl hy hc hh) rfl
  have hvacant : ∀ d, (s.desk g).desk = d → (∀ e, d ≠ .complete e) → (s.desk g).order = none ∧ (s.desk g).collection = none := by
    intro d hd hne
    have hok := hs.1 g
    generalize s.desk g = x at *
    obtain ⟨state, desk, repeats, order, _, lease, yield, collection, hold, _⟩ := x
    subst hst hd
    cases desk <;> cases order <;> simp_all [DeskOk]
  unfold delivery
  split
  · next e he =>
    obtain ⟨_, ⟨o, ho, _, hc⟩, _⟩ := (hs.1 g).of_complete he
    rw [delivered_fst]
    exact (deliver_ends hs.2 hothers hst ho hy hh hc).state
  · next he =>
    obtain ⟨ho, hc⟩ := hvacant _ he nofun
    split
    · exact hwaits n 1 ho hc
    · rw [delivered_fst]
      refine Ends.state ((buildOrder_ends hs.2 hs.disabled (by simp [hst]) ho).andThen fun t ht => ?_)
      obtain ⟨o, hdesk, _, hcharge⟩ := ht.order
      exact deliver_ends ht.accounts (fun h hg => by rw [ht.others h hg]; exact hs.1 h) (by rw [hdesk]; exact hst)
        (by rw [hdesk]) (by rw [hdesk]; exact hy) (by rw [hdesk]; exact hh) hcharge
  · next e he =>
    obtain ⟨ho, hc⟩ := hvacant _ he nofun
    split
    · split
      · exact (sameBooks_post _ _).budget (budgetOk_setDesk hothers hs.2 (deskOk_vacant (.inr (.inr (.inr hst))) ho rfl rfl hl hy hc
          (by simp [hh])) rfl)
      · exact hwaits _ _ ho hc
    · exact hwaits n 1 ho hc

/-- A confirmation leaves the generator JOINED, with no order. -/
theorem confirm_ends {s : State} {g : Gen} {o : Order} (hs : BudgetOk s) (ho : (s.desk g).order = some o)
    (hi : o.state ≠ .built) : Ends (fun t => BudgetOk t ∧ (t.desk g).state = .joined) (confirm g o s) := by
  obtain ⟨_, hd, hr, hcol, hh, _⟩ := (hs.1 g).of_issued ho hi
  refine ((sameBooks_frame.releaseOrder g false s).ends hs.disabled).andThen fun t ht => .ok ⟨?_, ?_⟩
  · have hbudget := ht.budget hs
    have hdesk := desk_dropOrderPosting t g
    refine budgetOk_setDesk (s := (t.dropOrderPosting g).setAlloc g _) (fun h hg => ?_) (accountsOk_dropOrderPosting g hbudget.2) ?_ rfl
    · rw [State.desk_setAlloc, hdesk, if_neg hg]
      exact hbudget.1 h
    · rw [State.desk_setAlloc, hdesk, if_pos rfl, ht.desk]
      exact deskOk_vacant (.inr (.inr (.inr rfl))) rfl hd hr rfl rfl hcol (by simp [hh])
  · rw [State.desk_setDesk_self]

theorem mismatchStop_keeps (g : Gen) : KeepsBudget (mismatchStop g) := fun s hs =>
  (stopGen_keeps g _ s hs).andThen fun t ht => (replanPass_keeps t ht).andThen (settle_keeps s)

theorem issuedOrder_some {s : State} {g : Gen} {o : Order} (h : s.issuedOrder g = some o) :
    (s.desk g).order = some o ∧ ∃ t, o.state = .issued t := by
  unfold State.issuedOrder at h
  split at h
  · next t _ _ _ ho =>
    cases Option.some.inj h
    exact ⟨ho, t, rfl⟩
  · cases h

theorem issuedOrder_none {s : State} {g : Gen} {o : Order} (h : s.issuedOrder g = none) (ho : (s.desk g).order = some o) :
    o.state = .built := by
  obtain ⟨_, state, _, _, _⟩ := o
  cases state with
  | built => rfl
  | issued t => simp [State.issuedOrder, ho] at h

theorem fetch_keeps (g : Gen) (n : Byte) {s : State} (hs : BudgetOk s) (hst : (s.desk g).state.inService = true) :
    BudgetOk (fetch g n s).1 := by
  unfold fetch
  split
  · next o hi =>
    obtain ⟨ho, i, hissued⟩ := issuedOrder_some hi
    split
    · have hc := confirm_ends hs ho (by simp [hissued])
      split
      · next t ht =>
        obtain ⟨hbudget, hjoined⟩ := hc.1 t ht
        exact delivery_keeps g n hbudget hjoined
      · next t ht => exact hc.2 t ht
    · have hm := mismatchStop_keeps g s hs
      split
      · next t ht => exact hm.1 t ht
      · next t ht => exact hm.2 t ht
  · next hi =>
    have hjoined : (s.desk g).state = .joined := by
      have hok := hs.1 g
      cases ho : (s.desk g).order with
      | some o => exact (hok.of_built ho (issuedOrder_none hi ho)).1
      | none =>
        generalize s.desk g = x at *
        obtain ⟨state, desk, repeats, order, _, lease, yield, collection, hold, _⟩ := x
        subst ho
        cases state <;> simp_all [DeskOk, GenState.inService]
    split
    · exact delivery_keeps g n hs hjoined
    · exact hs

end Sys2Proof.Machine

/-! PROOFS. The expiries, the caps, the configuration and RESTART keep the budget in order, and so every step does (R107, R108,
R110 to R117, R141, R150 to R154, R174, R187). -/

namespace Sys2Proof.Machine

/-! ## Desks whose timers stop -/

section
variable {d : Desk} (h : DeskOk d)
include h

theorem DeskOk.lease_none : DeskOk { d with lease := none } := ⟨h.1, nofun, h.2.2⟩

theorem DeskOk.yield_none : DeskOk { d with yield := none } := ⟨h.1, h.2.1, nofun, h.2.2.2⟩

theorem DeskOk.hold_none : DeskOk { d with hold := none } := by
  obtain ⟨hstate, hlease, hyield, hcollection, _, hrest⟩ := h
  exact ⟨hstate, hlease, hyield, hcollection, nofun, hrest⟩

theorem DeskOk.tick : DeskOk d.tick := by
  obtain ⟨hstate, hlease, hyield, hcollection, hhold, hrest⟩ := h
  have hsome : ∀ c : Option Nat, (downOne c).isSome = c.isSome := fun c => by cases c <;> rfl
  refine ⟨hstate, ?_, ?_, ?_, ?_, hrest⟩ <;> simpa only [Desk.tick, hsome]

theorem DeskOk.of_stopped (hs : d.state = .stopped) : d.order = none ∧ d.desk = .empty ∧ d.repeats = 0 ∧ d.lease = none ∧
    d.yield = none ∧ d.collection = none := by
  obtain ⟨state, desk, repeats, order, _, lease, yield, collection, hold, _⟩ := d
  subst hs
  cases desk <;> cases order <;> simp_all [DeskOk]

end

/-! ## Accounts -/

/-- An account replaced by one with the same load, in order. -/
theorem budgetOk_setAccount {s : State} {p : Phase} {a : Account} (hs : BudgetOk s) (hl : a.load = (s.account p).load)
    (hc : a.load ≤ a.committed) (ht : a.target ≤ a.committed) (hn : a.shed = none → a.target = a.committed)
    (hsh : a.shed.isSome = true → a.target < a.load) : BudgetOk (s.setAccount p a) := by
  refine ⟨hs.1, fun q => ?_⟩
  have hload : (s.setAccount p a).loadOf q = s.loadOf q := loadOf_congr (fun _ => rfl) (fun _ => rfl) q
  by_cases hq : q = p
  · subst hq
    unfold AccountOk
    rw [State.account_setAccount_self, hload, ← (hs.2 q).1]
    exact ⟨hl, hc, ht, hn, hsh⟩
  · exact (hs.2 q).congr (by rw [State.account_setAccount, if_neg hq]) hload

theorem settleCap_keeps (p : Phase) (target : Nat) {s : State} (hs : BudgetOk s) (h : (s.account p).load ≤ target) :
    BudgetOk (s.settleCap p target) := by
  have hmet := budgetOk_setAccount hs (a := { s.account p with target := target, committed := target, shed := none }) rfl h
    (le_refl _) (fun _ => rfl) nofun
  unfold State.settleCap
  simp only
  split
  · exact (sameBooks_post _ _).budget hmet
  · exact hmet

theorem startShed_keeps (p : Phase) (target deadline : Nat) {s : State} (hs : BudgetOk s) (h : target < (s.account p).load) :
    Ends BudgetOk (startShed p target deadline s) := by
  obtain ⟨_, hload, _⟩ := hs.2 p
  have hcut := budgetOk_setAccount hs (a := { s.account p with target := target, shed := some ⟨deadline, deadline⟩ }) rfl hload
    (le_of_lt (lt_of_lt_of_le h hload)) nofun fun _ => h
  unfold startShed
  simp only
  split
  · split
    · exact reportAll_keeps _ _ hcut
    · exact .ok hcut
  · exact reportAll_keeps _ _ ((sameBooks_post _ _).budget hcut)

theorem moveTarget_keeps (p : Phase) (target deadline : Nat) : KeepsBudget (moveTarget p target deadline) := by
  intro s hs
  unfold moveTarget
  split
  · exact .ok hs
  · split
    · next h => exact .ok (settleCap_keeps p target hs h)
    · next h => exact startShed_keeps p target deadline hs (not_le.mp h)

/-! ## Expiries -/

theorem endSwitch_keeps (c : CoilNo) : KeepsBudget (endSwitch c) := fun s hs =>
  (editCoil_keeps c _ s hs).andThen fun t ht => Ends.andThen (P := BudgetOk) (by
    split
    · exact editCoil_keeps c _ t ht
    · exact keepsBudget_of_leads (sameBooks_frame.followPlan c) t ht) (settle_keeps s)

theorem panGone_keeps (n : Slot) : KeepsBudget (panGone n) := fun s hs =>
  (editPan_keeps n _ s hs).andThen fun t ht => settle_keeps s _ ((sameBooks_post _ _).budget
    (SameBooks.budget (s := t) ⟨rfl, rfl, rfl⟩ ht))

theorem decrementTimer_keeps (n : Slot) : KeepsBudget (decrementTimer n) := keepsBudget_of_leads (sameBooks_frame.decrementTimer n)

theorem timerCompletes_keeps (n : Slot) : KeepsBudget (timerCompletes n) := fun s hs =>
  (completeIfDue_keeps n s hs).andThen (settle_keeps s)

theorem secondElapsed_keeps (n : Slot) : KeepsBudget (secondElapsed n) := fun s hs =>
  (decrementTimer_keeps n s hs).andThen fun t ht => (completeIfDue_keeps n t ht).andThen (settle_keeps s)

theorem holdAll_keeps : KeepsBudget holdAll := fun s hs =>
  (KeepsBudget.forEach (fun n => editPan_keeps n _) _ s hs).andThen fun t ht =>
    (reportAll_keeps _ t ht).andThen retestDesks_keeps

theorem permitExpires_keeps : KeepsBudget permitExpires := fun s hs =>
  holdAll_keeps _ ((sameBooks_post _ _).budget (SameBooks.budget (s := s) ⟨rfl, rfl, rfl⟩ hs))

theorem deadlineExpires_keeps (p : Phase) : KeepsBudget (deadlineExpires p) := fun s hs =>
  (KeepsBudget.forEach (fun g t ht => by
    unfold stopWhilePending
    split
    · exact stopGen_keeps g .shed t ht
    · exact .ok ht) _ s hs).andThen fun t ht => (replanPass_keeps t ht).andThen (settle_keeps s)

/-- A desk with one of its timers stopped. -/
theorem keeps_setDesk {s : State} {g : Gen} {d : Desk} (hs : BudgetOk s) (hok : DeskOk d) (ho : d.order = (s.desk g).order) :
    BudgetOk (s.setDesk g d) := budgetOk_setDesk (fun h _ => hs.1 h) hs.2 hok ho

theorem leaseExpires_keeps (g : Gen) : KeepsBudget (leaseExpires g) := by
  intro s hs
  have hyield : BudgetOk (if (s.issuedOrder g).isSome then s.requestYield g else s) := by
    split
    · next h =>
      obtain ⟨o, ho⟩ := Option.isSome_iff_exists.mp h
      obtain ⟨hdesk, i, hi⟩ := issuedOrder_some ho
      exact requestYield_ok hs hdesk (by simp [hi])
    · exact hs
  exact .ok (keeps_setDesk hyield (hyield.1 g).lease_none rfl)

theorem yieldExpires_keeps (g : Gen) : KeepsBudget (yieldExpires g) := by
  intro s hs
  unfold yieldExpires
  split
  · exact (stopGen_keeps g _ s hs).andThen fun t ht => (replanPass_keeps t ht).andThen (settle_keeps s)
  · exact .ok (keeps_setDesk hs (hs.1 g).yield_none rfl)

theorem collectionExpires_ends {g : Gen} {s : State} (hs : BudgetOk s) (hc : (s.desk g).collection.isSome = true) :
    Ends BudgetOk (collectionExpires g s) := by
  obtain ⟨e, he⟩ := (hs.1 g).2.2.2.1 hc
  obtain ⟨hst, _, hl, hy, hh⟩ := (hs.1 g).of_complete he
  refine ((sameBooks_frame.checkOrder g s).ends hs.disabled).andThen fun t ht => ?_
  refine ((sameBooks_frame.releaseCoils g false t).ends (ht.disabled hs.disabled)).andThen fun u hu => .ok ?_
  have hdesk : ∀ k, u.desk k = s.desk k := fun k => (hu.desk k).trans (ht.desk k)
  have haccounts : AccountsOk (if (u.desk g).order.isSome then u.dropOrderPosting g else u) := by
    have := hu.accounts_ok (ht.accounts_ok hs.2)
    split
    · exact accountsOk_dropOrderPosting g this
    · exact this
  have hdesks : ∀ k, (if (u.desk g).order.isSome then u.dropOrderPosting g else u).desk k =
      if k = g then { s.desk g with order := none } else s.desk k := fun k => by
    rw [← hdesk, ← hdesk, ← desk_dropOrderIf]
    split
    · exact (sameBooks_dropOrderPosting u g).desk k
    · rfl
  generalize (if (u.desk g).order.isSome then u.dropOrderPosting g else u) = v at haccounts hdesks ⊢
  have hvacant : v.desk g = { s.desk g with order := none } := by rw [hdesks, if_pos rfl]
  refine budgetOk_setDesk (fun k hk => ?_) haccounts ?_ rfl
  · rw [hdesks, if_neg hk]
    exact hs.1 k
  · rw [hvacant]
    exact deskOk_vacant (.inr (.inr (.inr hst))) rfl rfl rfl hl hy rfl (by simp [hh])

theorem holdEnds_keeps (g : Gen) : KeepsBudget (holdEnds g) := by
  intro s hs
  unfold holdEnds
  simp only
  split
  · next hst =>
    obtain ⟨ho, hd, hr, hl, hy, hc⟩ := (hs.1 g).of_stopped hst
    have hend : BudgetOk (s.setDesk g { s.desk g with state := (s.desk g).holdEnd.state, hold := none }) :=
      keeps_setDesk hs (deskOk_vacant (by cases (s.desk g).holdEnd <;> simp [HoldEnd.state]) ho hd hr hl hy hc nofun) rfl
    split
    · exact (replanPass_keeps _ hend).andThen (settle_keeps s)
    · exact .ok hend
  · exact .ok (keeps_setDesk hs (hs.1 g).hold_none rfl)

theorem expiry_keeps {c : Instr} {f : State → Option Nat} {work : Op} {s : State} (hf : countOf c = some f)
    (hw : expiryWork c = some work) (h0 : f s = some 0) (hs : BudgetOk s) : Ends BudgetOk (work s) := by
  cases c <;> cases hw
  case switchEnd c => exact endSwitch_keeps c s hs
  case lostTimeExpiry n => exact panGone_keeps n s hs
  case partSecondElapsed n => exact secondElapsed_keeps n s hs
  case boostEnded n => exact endBoost_keeps n s hs
  case permitExpired => exact permitExpires_keeps s hs
  case shedDeadlineExpiry p => exact deadlineExpires_keeps p s hs
  case leaseExpiry g => exact leaseExpires_keeps g s hs
  case yieldTimeout g => exact yieldExpires_keeps g s hs
  case collectionExpiry g =>
    cases hf
    exact collectionExpires_ends hs (Option.isSome_of_eq_some h0)
  case holdEnd g => exact holdEnds_keeps g s hs

/-! ## The time base -/

theorem Account.tick_shed (a : Account) : a.tick.shed.isSome = a.shed.isSome := by
  rw [Account.tick]
  exact Option.isSome_map

theorem AccountOk.tick {s t : State} {p : Phase} (h : AccountOk s p) (ha : t.account p = (s.account p).tick)
    (hl : t.loadOf p = s.loadOf p) : AccountOk t p := by
  obtain ⟨hload, hcap, ht, hn, hsome⟩ := h
  unfold AccountOk
  rw [ha, hl, Account.tick_shed]
  exact ⟨hload, hcap, ht, fun h => hn (Option.map_eq_none_iff.mp h), hsome⟩

theorem tickCounts_keeps {s : State} (hs : BudgetOk s) : BudgetOk s.tickCounts := by
  have hdesk : ∀ g, s.tickCounts.desk g = (s.desk g).tick := fun g => by simp [State.tickCounts, State.desk]
  refine ⟨fun g => by rw [hdesk]; exact (hs.1 g).tick, fun p => (hs.2 p).tick (by simp [State.tickCounts, State.account]) ?_⟩
  exact loadOf_congr (s := s) (t := s.tickCounts) (fun _ => rfl) (fun g => by rw [charge_eq, charge_eq, hdesk]; rfl) p

theorem millisecond_keeps : KeepsBudget millisecond := fun _ hs =>
  keepsBudget_of_leads (fun t => sameBooks_frame.millisecondPans _ _ t) _ (tickCounts_keeps hs)

/-! ## The configuration and the marks -/

theorem setParam_keeps {s : State} {v : Nat} {p : Param} (hs : BudgetOk s) (hc : s.anyCharge = false) :
    BudgetOk (s.setParam v p) := by
  cases p
  case phase g =>
    have hzero : ∀ h, s.charge h = 0 := fun h => by
      by_contra hne
      exact absurd ((anyCharge_iff s).mpr ⟨h, hne⟩) (by simp [hc])
    exact ⟨hs.1, fun q => (hs.2 q).congr rfl
      ((loadOf_eq_zero (s := s.setParam v (.phase g)) hzero q).trans (loadOf_eq_zero hzero q).symm)⟩
  all_goals exact SameBooks.budget (s := s) ⟨rfl, rfl, rfl⟩ hs

theorem configure_keeps (body : List Byte) {s : State} (hs : BudgetOk s) : BudgetOk (serveConfigure body s).1 := by
  have hcheck : ∀ p t, checkParam p s = .safe t → BudgetOk t := fun p t ht => by
    have hleads : ∀ u, Leads SameBooks u (checkParam p u) := fun u => by
      cases p <;> first | exact sameBooks_frame.checkLevels u | exact sameBooks_frame.here u
    exact (keepsBudget_of_leads hleads s hs).2 t ht
  unfold serveConfigure
  repeat' split
  · exact hs
  · unfold readParam
    split
    · next ht => exact hcheck _ _ ht
    · next ht => rw [checkParam_ok ht]; exact hs
  · exact hs
  · unfold writeParam
    split
    · next ht => exact hcheck _ _ ht
    · next ht =>
      rw [checkParam_ok ht]
      split
      · exact hs
      · split
        · exact hs
        · next hc => exact setParam_keeps hs (Bool.eq_false_iff.mpr hc)
  · exact hs
  · exact hs

theorem arm_keeps {s : State} (x : TestTarget) (hs : BudgetOk s) : BudgetOk (s.arm x) := by
  cases x <;> exact SameBooks.budget (s := s) ⟨rfl, rfl, rfl⟩ hs

/-! ## RESTART -/

/-- Every desk is in order. -/
def DesksOk (s : State) : Prop := ∀ g, DeskOk (s.desk g)

/-- A stop takes its last steps, or enters SAFE, from a state with the books of the generator's halt. -/
theorem stopGen_leads (g : Gen) (cause : StopCause) (s : State) : ∃ t, SameBooks (s.setDesk g { s.desk g with state := .stopped }) t ∧
    (stopGen g cause s = .ok (t.finishStop g cause) ∨ ∃ b, stopGen g cause s = .safe (enterSafe b t)) := by
  obtain ⟨t, ht, hok | ⟨b, hbad⟩⟩ := sameBooks_frame.releaseOrder g (decide (cause = .disable))
    (s.setDesk g { s.desk g with state := .stopped })
  · exact ⟨t, ht, .inl (by simp only [stopGen, hok, Flow.andThen])⟩
  · exact ⟨t, ht, .inr ⟨b, by simp only [stopGen, hbad, Flow.andThen]⟩⟩

/-- RESTART's work on one generator leaves its desk without an order, and gives none an order. -/
theorem restartGen_desks {s : State} (g : Gen) (hs : DesksOk s) : DesksOk (restartGen s g) ∧ ((restartGen s g).desk g).order = none ∧
    ∀ h, (s.desk h).order = none → ((restartGen s g).desk h).order = none := by
  unfold restartGen
  split
  · next hst => exact ⟨hs, (hs g).order_none (by rw [hst]; rfl), fun _ => id⟩
  · next hst => exact ⟨hs, (hs g).order_none (by rw [hst]; rfl), fun _ => id⟩
  · next hst =>
    obtain ⟨ho, hd, hr, hl, hy, hc⟩ := (hs g).of_stopped hst
    have hdesk : ∀ h, ((s.setDesk g { s.desk g with hold := some Config.stopHold, holdEnd := .absent }).postStopped g .restart).desk h =
        if h = g then { s.desk g with hold := some Config.stopHold, holdEnd := .absent } else s.desk h := fun h => by
      rw [State.postStopped, State.desk_postEvent, State.desk_setDesk]
    refine ⟨fun h => ?_, by rw [hdesk, if_pos rfl]; exact ho, fun h hh => ?_⟩
    · rw [hdesk]
      split
      · exact deskOk_vacant (.inr (.inl hst)) ho hd hr hl hy hc fun _ => hst
      · exact hs h
    · rw [hdesk]
      split
      · exact ho
      · exact hh
  · have hhalted : ∀ h, h ≠ g → (s.setDesk g { s.desk g with state := .stopped }).desk h = s.desk h := fun h hg => by
      rw [State.desk_setDesk, if_neg hg]
    have hdis : DisabledOk (s.setDesk g { s.desk g with state := .stopped }) := fun h hst => by
      by_cases hg : h = g
      · rw [hg, State.desk_setDesk_self] at hst
        cases hst
      · rw [hhalted h hg]
        exact hs h
    obtain ⟨t, ht, hok | ⟨b, hbad⟩⟩ := stopGen_leads g .restart s
    · rw [hok]
      have hdesk : ∀ h, h ≠ g → (t.finishStop g .restart).desk h = s.desk h := fun h hg => by
        rw [desk_finishStop, if_neg hg, ht.desk, hhalted h hg]
      have hnone : ((t.finishStop g .restart).desk g).order = none := by rw [desk_finishStop, if_pos rfl]
      refine ⟨fun h => ?_, hnone, fun h hh => ?_⟩ <;> by_cases hg : h = g
      · exact hg ▸ deskOk_finishStop t g .restart
      · exact (hdesk h hg).symm ▸ hs h
      · exact hg ▸ hnone
      · exact (congrArg (fun d : Desk => d.order) (hdesk h hg)).trans hh
    · rw [hbad]
      have hbudget := budgetOk_enterSafe b (ht.disabled hdis)
      have hnone : ∀ h, ((enterSafe b t).desk h).order = none := fun h => (hbudget.1 h).order_none (by
        rw [desk_enterSafe, Desk.safeStopped]
        split
        · next hd => rw [hd]; rfl
        · rfl)
      exact ⟨hbudget.1, hnone g, fun h _ => hnone h⟩

theorem restartGens_desks : ∀ (l : List Gen) {s : State}, DesksOk s → DesksOk (l.foldl restartGen s) ∧
    ∀ h, h ∈ l ∨ (s.desk h).order = none → ((l.foldl restartGen s).desk h).order = none
  | [], _, hs => ⟨hs, fun _ hh => hh.resolve_left List.not_mem_nil⟩
  | g :: rest, s, hs => by
    obtain ⟨hok, hself, hkeep⟩ := restartGen_desks g hs
    obtain ⟨hdesks, hnone⟩ := restartGens_desks rest hok
    refine ⟨hdesks, fun h hh => hnone h ?_⟩
    rcases hh with hh | hh
    · rcases List.mem_cons.mp hh with rfl | hm
      · exact .inr hself
      · exact .inl hm
    · exact .inr (hkeep h hh)

theorem restart_keeps {s : State} (hs : BudgetOk s) : BudgetOk (restart s) := by
  have hunchecked : DesksOk s.unchecked := fun g => by
    have hdesk : s.unchecked.desk g = { s.desk g with order := (s.desk g).order.map fun o => { o with codeOk := true } } := by
      simp [State.unchecked, State.desk]
    rw [hdesk]
    obtain ⟨hstate, hlease, hyield, hcollection, hhold, hrepeats, hcharge⟩ := hs.1 g
    generalize s.desk g = d at *
    obtain ⟨state, desk, repeats, order, _, lease, yield, collection, hold, _⟩ := d
    refine ⟨?_, hlease, hyield, hcollection, hhold, hrepeats, fun o ho => ?_⟩
    · cases order <;> cases state <;> cases desk <;> exact hstate
    · obtain ⟨o', ho', rfl⟩ := Option.map_eq_some_iff.mp ho
      exact hcharge o' ho'
  obtain ⟨hdesks, hnone⟩ := restartGens_desks allGens hunchecked
  unfold restart
  generalize allGens.foldl restartGen s.unchecked = u at hdesks hnone
  have hbudget : BudgetOk u.cleared := by
    have haccount : ∀ p, u.cleared.account p = (u.account p).settled := fun p => by simp [State.account, State.cleared]
    refine ⟨hdesks, fun p => accountOk_of_idle (fun g => ?_) (by rw [haccount]; rfl) (by rw [haccount]; rfl) (by rw [haccount]; rfl)⟩
    rw [charge_eq, show u.cleared.desk g = u.desk g from rfl, hnone g (.inl (mem_allGens g))]
    rfl
  exact SameBooks.budget (s := u.cleared) ⟨rfl, rfl, rfl⟩ hbudget

/-! ## Every request and every step -/

theorem Ends.snapshot {f : Flow} (h : Ends BudgetOk f) (fields : State → List Byte) : BudgetOk (f.snapshot fields).1 := by
  cases f with
  | ok t => exact h.1 t rfl
  | safe v => exact h.2 v rfl

theorem serve_keeps (k : ReqKind) (l : Link) (body : List Byte) {s : State} (hs : BudgetOk s) : BudgetOk (serve k l body s).1 := by
  have books : ∀ t : State, SameBooks s t → BudgetOk t := fun t h => h.budget hs
  cases k
  case status => exact hs
  case setLevel =>
    simp only [serve, serveSetLevel, serveSlot]
    repeat' split
    all_goals first | exact hs | exact (setLevel_keeps _ _ s hs).state
  case setTimer =>
    simp only [serve, serveSetTimer, serveSlot]
    repeat' split
    all_goals first | exact hs | exact (setTimer_keeps _ _ _ _ s hs).state
  case hold =>
    simp only [serve, serveHold]
    repeat' split
    all_goals first | exact hs | exact (holdSlots_keeps _ s hs).state
  case resume =>
    simp only [serve, serveResume]
    repeat' split
    all_goals first | exact hs | exact (resumeSlots_keeps _ s hs).state
  case stopAll =>
    simp only [serve, serveStopAll]
    split
    · exact hs
    · exact (stopAll_keeps s hs).state
  case setWindow =>
    simp only [serve, serveSetWindow]
    repeat' split
    all_goals first | exact hs | exact (reportAll_keeps _ _ (books (s.setWindow _ _) ⟨rfl, rfl, rfl⟩)).state
  case permit =>
    simp only [serve, servePermit]
    repeat' split
    all_goals first
      | exact hs
      | exact (settle_keeps s _ (books { s with permit := .running _ } ⟨rfl, rfl, rfl⟩)).state
  case enableGenerators =>
    simp only [serve, serveEnable]
    repeat' split
    all_goals first | exact hs | exact (enableGens_keeps _ _ s hs).state
  case checkTest =>
    simp only [serve, serveCheckTest]
    repeat' split
    all_goals first | exact hs | exact arm_keeps _ hs
  case restart => exact restart_keeps hs
  case readEvents =>
    simp only [serve, serveReadEvents]
    repeat' split
    all_goals exact hs
  case readPans =>
    simp only [serve, serveReadPans]
    split
    · exact hs
    · exact (KeepsBudget.forEach (fun n => keepsBudget_of_leads (sameBooks_frame.checkPan n)) _ s hs).snapshot _
  case readMap =>
    simp only [serve, serveReadMap]
    split
    · exact hs
    · exact (KeepsBudget.forEach (fun c => keepsBudget_of_leads (sameBooks_frame.checkCoil c)) _ s hs).snapshot _
  case configure => exact configure_keeps body hs
  case hello =>
    simp only [serve, serveHello]
    split
    · exact hs
    · split
      · exact hs
      · next hg =>
        have hends := hello_ends (linkGen l) hs hg
        split
        · next t ht => exact hends.1 t ht
        · next t ht => exact hends.2 t ht
  case sweep =>
    simp only [serve, serveSweep]
    repeat' split
    all_goals first | exact hs | exact (sweep_keeps _ _ s hs).state
  case fetch =>
    simp only [serve, serveFetch]
    split
    · exact hs
    · split
      · exact hs
      · exact hs
      · exact hs
      · next hstopped hdisabled habsent =>
        split
        · refine fetch_keeps _ _ hs ?_
          cases hst : (s.desk (linkGen l)).state <;> first | rfl | contradiction
        · exact hs
  case setCap =>
    simp only [serve, serveSetCap, setCap]
    repeat' split
    all_goals first | exact hs | exact (moveTarget_keeps _ _ _ s hs).state
  case shed =>
    simp only [serve, serveShed, shedTo]
    repeat' split
    all_goals first | exact hs | exact (moveTarget_keeps _ _ _ s hs).state
  case readLoad =>
    simp only [serve, serveReadLoad]
    split <;> exact hs

theorem budget_rules : StepRules BudgetOk BudgetOk where
  done _ h := h
  ports s _ h := SameBooks.budget (s := s) ⟨rfl, rfl, rfl⟩ h
  portsAfter s _ h := SameBooks.budget (s := s) ⟨rfl, rfl, rfl⟩ h
  reset s straps _ _ := SameBooks.budget (s := State.powerOn straps s.pending s.freeCount) ⟨rfl, rfl, rfl⟩ (budgetOk_powerOn _ _ _)
  millisecond s hs := (millisecond_keeps s hs).state
  decrement n s hs := (decrementTimer_keeps n s hs).state
  serve k l body _ hs := serve_keeps k l body hs
  expiry _ _ _ _ hf hw h0 hs := (expiry_keeps hf hw h0 hs).state
  timer n s hs := (timerCompletes_keeps n s hs).state
  retest g s hs := (retestDesk_keeps g s hs).state

/-- Settles O9: every event keeps the loads, the caps and the desks in order, RESTART and SAFE entry by settling the accounts. -/
theorem loadStaysWithinTheCap : Obligations.LoadStaysWithinTheCap := by
  unfold Obligations.LoadStaysWithinTheCap
  intro s t hs ht
  exact step_keeps budget_rules (fun s q n h => SameBooks.budget (s := s) ⟨rfl, rfl, rfl⟩ h) hs ht

end Sys2Proof.Machine

/-! PROOFS. Reports in generator-number order (R99 to R101, R159), the confirmation of a candidate (R39, R53, R54), and the end of
collection timers, waits and holds with what settles after an event (R91, R96, R97, R149, R150, R154). -/

namespace Sys2Proof.Machine

/-! ## Work for each generator -/

theorem forEach_gens (work : Gen → Op) (s : State) :
    forEach work allGens s = (((work 0 s).andThen (work 1)).andThen (work 2)).andThen (work 3) := by
  rw [← Flow.ok_andThen s (forEach work allGens), forEach_eq_foldl, allGens_eq]
  rfl

/-- Work for the items that pass a test. -/
theorem forEach_filter {α : Type} (work : α → Op) (p : α → Bool) : ∀ (l : List α) (s : State),
    forEach work (l.filter p) s = forEach (fun x s => if p x = true then work x s else .ok s) l s
  | [], _ => rfl
  | x :: xs, s => by
    by_cases hx : p x = true
    · simp only [List.filter_cons, hx, if_true, forEach]
      exact congrArg _ (funext fun t => forEach_filter work p xs t)
    · simp only [List.filter_cons, hx, if_false, forEach, Bool.false_eq_true, Flow.ok_andThen]
      exact forEach_filter work p xs s

/-! ## With every code valid -/

theorem Leads.of_ok {R : State → State → Prop} {s t : State} {f : Flow} (h : Leads R s f) (hf : f = .ok t) : R s t := by
  obtain ⟨u, hu, rfl | ⟨b, rfl⟩⟩ := h
  · exact Flow.ok.inj hf ▸ hu
  · cases hf

theorem checkOrder_of_sound {s : State} (hs : s.Sound) (g : Gen) : checkOrder g s = .ok s := by
  have h := hs.orders g
  unfold checkOrder
  split
  · next o ho =>
    rw [Desk.orderOk, ho] at h
    exact if_pos h
  · rfl

/-- The path of a piece of work on orders that touches no desk. -/
theorem Run.onlyRecords {s : State} {f : Flow} (h : Run .orders (fun _ => False) s f) (hs : s.Sound) :
    ∃ t, f = .ok t ∧ t.Sound ∧ OrderWork s t ∧ (∀ g, t.desk g = s.desk g) ∧ ∀ g, t.alloc g = s.alloc g := by
  obtain ⟨t, ht, hpath, hsound⟩ := h.completes hs
  exact ⟨t, ht, hsound, hpath.orderWork, fun g => hpath.desk (fun h => h), fun g => hpath.alloc (fun h => h)⟩

theorem releaseCoils_of_sound {s : State} (hs : s.Sound) (g : Gen) (d : Bool) : ∃ t, releaseCoils g d s = .ok t ∧ t.Sound ∧
    OrderWork s t ∧ (∀ h, t.desk h = s.desk h) ∧ ∀ h, t.alloc h = s.alloc h := (run_releaseCoils g d s).onlyRecords hs

theorem path_dropPosting (s : State) (g : Gen) : Path .orders (fun _ => True) s (s.dropOrderPosting g) :=
  path_dropOrderPosting s g trivial

/-- A build completes, as work on orders; its generator's desk only gains a BUILT order. -/
theorem buildOrder_sound {s : State} (hs : s.Sound) (g : Gen) : ∃ t, buildOrder g s = .ok t ∧ t.Sound ∧ OrderWork s t ∧
    ∃ o, t.desk g = { s.desk g with order := some o } ∧ o.state = .built := by
  obtain ⟨t, ht, hpath, hsound⟩ := (run_buildOrder (w := .orders) (D := fun _ => True) g s trivial).completes hs
  refine ⟨t, ht, hsound, hpath.orderWork, ?_⟩
  have hbuild := ht
  unfold buildOrder at hbuild
  simp only [readForBuild_of_sound hs, Flow.ok_andThen] at hbuild
  generalize s.choose (s.candidatesFor g) = chosen at hbuild
  have hlevels : doIf (!chosen.isEmpty) checkLevels s = .ok s := by
    unfold doIf
    split
    · exact checkLevels_of_sound hs
    · rfl
  rw [hlevels, Flow.ok_andThen] at hbuild
  have hedits : Leads SameBooks s (forEach (fun n => editPan n (builtPan g (s.candidatesFor g) chosen (s.fits g chosen) n)) allSlots s) :=
    sameBooks_frame.forEach (fun n t => sameBooks_frame.editPan n _ t) _ s
  generalize forEach (fun n => editPan n (builtPan g (s.candidatesFor g) chosen (s.fits g chosen) n)) allSlots s = f at hbuild hedits
  obtain ⟨u, hu, rfl | ⟨b, rfl⟩⟩ := hedits
  · rw [Flow.ok_andThen] at hbuild
    obtain ⟨v, hv, hok | ⟨b, hbad⟩⟩ := sameBooks_frame.takeCoils g (s.legsFor g chosen (s.fits g chosen))
      (u.writeOrder g (s.legsFor g chosen (s.fits g chosen)))
    · rw [hok, Flow.ok_andThen] at hbuild
      cases hbuild
      have hdesk := (sameBooks_frame.postPowers g s v).desk g
      rw [hv.desk, desk_writeOrder, if_pos rfl, hu.desk] at hdesk
      exact ⟨_, hdesk, rfl⟩
    · rw [hbad] at hbuild
      cases hbuild
  · cases hbuild

theorem buildForWaiting_of_ok {s t : State} {g : Gen} (entry : Byte) (h : buildOrder g s = .ok t) :
    buildForWaiting g entry s = .ok (t.setDesk g { t.desk g with
      desk := .complete entry, collection := some t.params.collectionTime }) := by
  rw [buildForWaiting, h, Flow.ok_andThen]

/-! ## Reports (R99 to R101, R159) -/

section
variable {s : State} {g : Gen}

theorem issuedOrder_eq {o : Order} (h : s.issuedOrder g = some o) : (s.desk g).order = some o ∧ o.state ≠ .built := by
  obtain ⟨ho, t, ht⟩ := issuedOrder_some h
  exact ⟨ho, by simp [ht]⟩

theorem reportDown_none (h : (s.desk g).order = none) : reportDown g s = .ok s := by
  simp [reportDown, checkOrder, h, Flow.andThen]

theorem reportDown_issued (hs : s.Sound) {o : Order} (h : s.issuedOrder g = some o) : reportDown g s = .ok (s.requestYield g) := by
  obtain ⟨ho, t, ht⟩ := issuedOrder_some h
  simp only [reportDown, checkOrder_of_sound hs, Flow.ok_andThen, ho, ht]

theorem reportDown_built (hs : s.Sound) {o : Order} (ho : (s.desk g).order = some o) (hb : o.state = .built) :
    reportDown g s = rebuild g s := by
  simp only [reportDown, checkOrder_of_sound hs, Flow.ok_andThen, ho, hb]

theorem requestYield_ordered (h : (s.desk g).state = .ordered) : s.requestYield g = s.setDesk g { s.desk g with
    state := .yielding, yield := some s.params.yieldTimeout } := if_pos h

theorem requestYield_other (h : (s.desk g).state ≠ .ordered) : s.requestYield g = s := if_neg h

/-- A rebuild of a COMPLETE desk's order: the wait test decides between WAITING and COMPLETE again. -/
theorem rebuild_of_sound (hs : s.Sound) {entry : Byte} (hd : (s.desk g).desk = .complete entry) :
    ∃ s1, releaseCoils g false s = .ok s1 ∧
      let w := s1.dropOrderPosting g
      (w.waitBlocked g = true → rebuild g s = .ok (w.setDesk g { w.desk g with desk := .waiting entry, collection := none })) ∧
      (w.waitBlocked g = false → ∃ t, buildOrder g w = .ok t ∧ rebuild g s = .ok (t.setDesk g { t.desk g with
        desk := .complete entry, collection := some s.params.collectionTime })) := by
  obtain ⟨s1, h1, hsound, hwork, _⟩ := releaseCoils_of_sound hs g false
  have hdrop := path_dropPosting s1 g
  have hbuilt : rebuild g s = if (s1.dropOrderPosting g).waitBlocked g then
      .ok ((s1.dropOrderPosting g).setDesk g { (s1.dropOrderPosting g).desk g with desk := .waiting entry, collection := none })
      else buildForWaiting g entry (s1.dropOrderPosting g) := by
    simp only [rebuild, h1, Flow.ok_andThen, hd, DeskState.entry]
  refine ⟨s1, h1, fun hw => by rw [hbuilt, if_pos hw], fun hw => ?_⟩
  obtain ⟨t, ht, _, hframe, _⟩ := buildOrder_sound (hdrop.sound hsound) g
  have hparams : t.params = s.params := hframe.params.trans (hdrop.unmoved.params.trans hwork.params)
  refine ⟨t, ht, ?_⟩
  rw [hbuilt, if_neg (by simp [hw]), buildForWaiting_of_ok entry ht, hparams]

end

theorem mem_legHolders (s : State) (g : Gen) (p : PanId) :
    g ∈ s.legHolders p ↔ ∃ o, (s.desk g).order = some o ∧ ∃ l ∈ o.legs, l.pan = p := by
  simp only [State.legHolders, List.mem_filter, mem_allGens, true_and]
  cases (s.desk g).order with
  | none => simp
  | some o => simp [Order.hasLeg]

/-- Settles O49: the order of the reports, and the report by what the generator's order is. -/
theorem downwardReports : Obligations.DownwardReports := by
  unfold Obligations.DownwardReports
  refine ⟨fun gs s => ?_, fun s g => ⟨mem_legHolders s g, fun p => ?_, charge_eq s g, fun o ho hcode => ?_⟩,
    fun s g hs => ⟨reportDown_none, fun o ho hst => ?_, fun o ho hst => ?_, fun o entry ho hb hd => ?_⟩⟩
  · simp only [reportAll, forEach_filter, forEach_gens, decide_eq_true_eq]
  · simp [State.chargedOn, mem_allGens]
  · rw [reportDown, checkOrder_bad ho hcode]
    rfl
  · rw [reportDown_issued hs ho, requestYield_ordered hst]
  · rw [reportDown_issued hs ho, requestYield_other hst]
  · rw [reportDown_built hs ho hb]
    exact rebuild_of_sound hs hd

/-! ## Confirmation (R39, R53, R54) -/

theorem freeSlot_eq_some_iff {s : State} {n : Slot} :
    s.freeSlot = some n ↔ (s.pan n).state = .free ∧ ∀ m, m < n → (s.pan m).state ≠ .free := by
  rw [State.freeSlot, allSlots, ← Fin.find?_eq_find?_finRange, Fin.find?_eq_some_iff]
  simp

theorem freeSlot_eq_none_iff {s : State} : s.freeSlot = none ↔ ∀ n, (s.pan n).state ≠ .free := by
  simp [State.freeSlot, mem_allSlots]

theorem due_iff {k : Nat} {c : Candidate} : c.due k = true ↔ k ≤ c.count ∧ c.count ≠ 0 ∧ 8 ≤ c.total := decide_eq_true_iff

/-- A FREE slot takes the candidate: its record, its place in the Priority List and its events. -/
theorem confirmInto_of_sound {s : State} (hs : s.Sound) (n : Slot) (c : Candidate) :
    let w := s.presetAt c.centre
    let p : Pan := { Pan.freed ((s.pan n).tag + 1) with
      state := .present, footprint := c.footprint, centre := some c.centre, total := c.total, window := w
      level := (w.map fun x => (s.window x).preset.castSucc).getD 0
      source := if w.isSome then .window else .panel }
    let placed : State := (({ s with priority := s.priority ++ [n] }.setPan n p).setPartSecond n 0).postEvent
      ⟨.panConfirmed, s.now % 65536, some ⟨n, some p.tag⟩, none, none, none⟩
    confirmInto n c s = .ok (match w with
      | some x => placed.postEvent ⟨.levelSetByWindow, s.now % 65536, some ⟨n, some p.tag⟩, none, none, some (.window x)⟩
      | none => placed) := by
  have hcode := hs.pans n
  have hpan : ∀ (q : Pan) (ps : List Slot), ({ s with pans := (s.setPan n q).pans, priority := ps } : State).pan n = q :=
    fun q _ => State.pan_setPan_self s n q
  intro w
  have hpreset : s.presetAt c.centre = w := rfl
  clear_value w
  unfold confirmInto
  rw [hpreset]
  cases w <;> simp only <;> rw [editPan_of_sound hs n hcode]
  case none =>
    simp [Pan.confirmed, hcode, hpan, State.postPan, State.event, State.panId, Flow.andThen, Pan.freed]
    rfl
  case some x =>
    simp [Pan.confirmed, hcode, hpan, State.postPan, State.postWindow, State.event, State.panId, Flow.andThen, Pan.freed, presetLevel]
    rfl

/-- Settles O51: the record and the events of a confirmation, and step 6 candidate by candidate. -/
theorem candidateIsConfirmed : Obligations.CandidateIsConfirmed := by
  unfold Obligations.CandidateIsConfirmed
  refine ⟨fun s n c hs _ => ⟨confirmInto_of_sound hs n c, fun k hk => freeSlot_eq_some_iff.mp hk⟩,
    fun s c rest stayed => ⟨rfl, fun hdue => ?_, fun hdue n hn => ?_, fun hdue hfree => ?_⟩⟩
  · rw [stepConfirm, if_neg (mt due_iff.mp hdue)]
  · rw [stepConfirm, if_pos (due_iff.mpr hdue), hn]
  · rw [stepConfirm, if_pos (due_iff.mpr hdue), freeSlot_eq_none_iff.mpr hfree]
    rfl

/-! ## What settles, waits and holds (R91, R96, R97, R149, R150, R154) -/

theorem legHolders_postEvent (s : State) (e : Event) (p : PanId) : (s.postEvent e).legHolders p = s.legHolders p := by
  simp only [State.legHolders, State.desk_postEvent]

theorem panId_postEvent (s : State) (e : Event) (n : Slot) : (s.postEvent e).panId n = s.panId n := by
  simp only [State.panId, State.pan_postEvent]

theorem completeTimer_eq (n : Slot) (s : State) : completeTimer n s = (editPan n Pan.timerDone s).andThen fun t =>
    reportAll (t.legHolders (t.panId n)) (t.postEvent ⟨.timerDone, t.now % 65536, some ⟨n, some (t.pan n).tag⟩, none, none, none⟩) := by
  simp only [completeTimer, State.postPan, legHolders_postEvent, panId_postEvent]
  rfl

theorem endBoost_eq (n : Slot) (s : State) : endBoost n s = (editPan n Pan.boostDone s).andThen fun t =>
    reportAll (t.legHolders (t.panId n)) (t.postEvent ⟨.boostEnded, t.now % 65536, some ⟨n, some (t.pan n).tag⟩, none, none, none⟩) := by
  simp only [endBoost, State.postPan, legHolders_postEvent, panId_postEvent]
  rfl

theorem retestDesk_idle {s : State} {g : Gen} (h : (∀ entry, (s.desk g).desk ≠ .waiting entry) ∨ s.waitBlocked g = true) :
    retestDesk g s = .ok s := by
  unfold retestDesk
  split
  · next e he =>
    rcases h with h | h
    · exact absurd he (h e)
    · exact if_pos h
  · rfl

theorem retestDesk_builds {s : State} {g : Gen} {entry : Byte} (hd : (s.desk g).desk = .waiting entry)
    (hw : s.waitBlocked g = false) : retestDesk g s = buildForWaiting g entry s := by
  simp [retestDesk, hd, hw]

/-- The end of a collection timer releases and drops the order and empties the desk. -/
theorem collectionExpires_of_sound {s : State} (hs : s.Sound) {g : Gen} {o : Order} (ho : (s.desk g).order = some o) :
    ∃ s1, releaseCoils g false s = .ok s1 ∧ collectionExpires g s = .ok ((s1.dropOrderPosting g).setDesk g
      { s.desk g with desk := .empty, repeats := 0, order := none, collection := none }) := by
  obtain ⟨s1, h1, _, _, hdesk, _⟩ := releaseCoils_of_sound hs g false
  refine ⟨s1, h1, ?_⟩
  simp only [collectionExpires, checkOrder_of_sound hs, Flow.ok_andThen, h1, hdesk, ho, Option.isSome_some, if_true,
    desk_dropOrderPosting]

/-- Work on orders after a hold, and what settles then. -/
theorem replan_settles {s : State} (before : State) (hs : s.Sound) : ∃ s1 u, replanPass s = .ok s1 ∧ s1.Sound ∧ OrderWork s s1 ∧
    settle before s1 = .ok u ∧ Settled before s1 u := by
  obtain ⟨s1, h1, hpath, hsound⟩ := (run_replanPass (w := .orders) (D := fun _ => True) s (holdsNone_all s)).completes hs
  obtain ⟨u, hu⟩ := settled_sound before hsound
  exact ⟨s1, u, h1, hsound, hpath.orderWork, hu.work, hu⟩

theorem sound_setDesk {s : State} (hs : s.Sound) (g : Gen) {d : Desk} (hd : d.orderOk = true) : (s.setDesk g d).Sound :=
  (update_setDesk_service (D := fun _ => True) s g d trivial (.inl hd)).sound hs

/-- Settles O45: what settles after an event, and the ends of a collection timer, a wait and a hold. -/
theorem collectionWaitAndHoldEnd : Obligations.CollectionWaitAndHoldEnd := by
  unfold Obligations.CollectionWaitAndHoldEnd
  refine ⟨fun n x => by rw [completeIfDue, completeTimer_eq]; rfl, fun n x => by rw [endBoostIfDue, endBoost_eq]; rfl, fun g x => ⟨retestDesk_idle, fun entry hd hw => retestDesk_builds hd hw⟩,
    fun before s => ?_, fun s g hr hs => ⟨fun entry o hc hd ho => ?_, fun entry hd hw => ?_, fun entry hd hw => ?_⟩,
    fun s g hr hst hh => ⟨fun he => ?_, fun he hs => ?_⟩⟩
  · exact congrArg _ (funext fun x => forEach_gens retestDesk x)
  · obtain ⟨s1, h1, hwork⟩ := collectionExpires_of_sound hs ho
    refine ⟨s1, h1, ?_⟩
    rw [exec_expiry (c := .collectionExpiry g) rfl rfl, expire_due hr hc, hwork]
    rfl
  · show execWaitConditionCleared g s = _
    rw [execWaitConditionCleared, if_neg (by simp [hr]), retestDesk_idle (.inr hw)]
    rfl
  · obtain ⟨t, ht, _, hframe, hdesk⟩ := buildOrder_sound hs g
    refine ⟨t, ht, hframe, ?_, hdesk⟩
    show execWaitConditionCleared g s = _
    rw [execWaitConditionCleared, if_neg (by simp [hr]), retestDesk_builds hd hw, buildForWaiting_of_ok entry ht, hframe.params]
    rfl
  · rw [exec_expiry (c := .holdEnd g) rfl rfl, expire_due hr hh]
    simp [holdEnds, hst, he, HoldEnd.state, Flow.state]
  · obtain ⟨s1, u, h1, _, hframe, hset, hsettled⟩ := replan_settles s (sound_setDesk hs g
      (d := { s.desk g with state := .joined, hold := none }) (hs.orders g))
    refine ⟨s1, u, ?_, h1, hframe, hsettled⟩
    have hwork : holdEnds g s =
        (replanPass (s.setDesk g { s.desk g with state := .joined, hold := none })).andThen (settle s) := by
      simp [holdEnds, hst, he, HoldEnd.state]
    rw [exec_expiry (c := .holdEnd g) rfl rfl, expire_due hr hh, hwork, h1, Flow.ok_andThen, hset]
    rfl

end Sys2Proof.Machine

/-! PROOFS. The release of an order, coil by coil (R10), with the energy its legs add (R145) and the charge it gives back (R108,
R114). -/

namespace Sys2Proof.Machine

/-! ## Work on one coil after another -/

theorem setCoil_setCoil (s : State) (c : CoilNo) (r r' : Coil) : (s.setCoil c r).setCoil c r' = s.setCoil c r' := by
  simp only [State.setCoil, Vector.set_set]

/-- Work that replaces one coil record by what is made of it, on different coils. -/
theorem forEach_coilWork_of_sound {work : CoilNo → Op} {f : State → CoilNo → Coil}
    (hwork : ∀ c s, s.Sound → work c s = .ok (s.setCoil c (f s c)) ∧ (f s c).codeOk = true)
    (hf : ∀ s c d r, d ≠ c → f (State.setCoil s d r) c = f s c) :
    ∀ (l : List CoilNo), l.Nodup → ∀ {s : State}, s.Sound → forEach work l s =
      .ok (s.withCoils fun c => if c ∈ l then f s c else s.coil c)
  | [], _, s, _ => congrArg Flow.ok (withCoils_self s).symm
  | c :: cs, hl, s, hs => by
    obtain ⟨hc, hcs⟩ := List.nodup_cons.mp hl
    obtain ⟨heq, hok⟩ := hwork c s hs
    rw [forEach, heq, Flow.ok_andThen, forEach_coilWork_of_sound hwork hf cs hcs (hs.setCoil c hok), withCoils_setCoil]
    refine congrArg (fun x => Flow.ok (s.withCoils x)) (funext fun d => ?_)
    by_cases hd : d = c
    · subst hd
      simp [hc]
    · simp [State.coil_setCoil, hd, hf _ _ _ _ (Ne.symm hd)]

/-! ## A coil follows its owner's plan (R10, R13) -/

/-- A coil record after it has followed its owner's plan. -/
def State.followed (s : State) (c : CoilNo) (r : Coil) : Coil :=
  match r.state with
  | .claimed o =>
    match (s.pan o.slot).plan with
    | some plan =>
      if (s.pan o.slot).tag = o.tag ∧ r.driver ≠ plannedPosition c plan then relayTo c (plannedPosition c plan) r else r
    | none => r
  | _ => r

theorem codeOk_relayTo (c : CoilNo) (p : Position) (r : Coil) : (relayTo c p r).codeOk = r.codeOk := by
  unfold relayTo
  repeat' split
  all_goals rfl

theorem codeOk_followed (s : State) (c : CoilNo) (r : Coil) : (s.followed c r).codeOk = r.codeOk := by
  unfold State.followed
  repeat' split
  all_goals first | rfl | exact codeOk_relayTo _ _ _

theorem followPlan_of_sound {s : State} (hs : s.Sound) (c : CoilNo) :
    followPlan c s = .ok (s.setCoil c (s.followed c (s.coil c))) := by
  unfold followPlan State.followed
  cases hst : (s.coil c).state with
  | claimed o =>
    simp only [checkPan_of_sound hs, Flow.ok_andThen]
    cases hplan : (s.pan o.slot).plan with
    | none => simp only [State.setCoil_coil]
    | some plan =>
      simp only
      split
      · exact editCoil_of_sound hs c (by rw [codeOk_relayTo, hs.coils c])
      · rw [State.setCoil_coil]
  | _ => simp only [State.setCoil_coil]

section
variable {s : State} {c : CoilNo} {r : Coil} {p : PanId}

theorem followed_planless (h : (s.pan p.slot).plan = none) :
    s.followed c { r with state := .claimed p } = { r with state := .claimed p } := by
  simp [State.followed, h]

/-- A CLAIMED coil whose owner's plan calls for the other driver starts to switch. -/
theorem followed_planned {plan : Plan} (h : (s.pan p.slot).plan = some plan) : s.followed c { r with state := .claimed p } =
    if (s.pan p.slot).tag = p.tag ∧ hasRelay c = true ∧ r.driver ≠ plannedPosition c plan then
      { r with driver := plannedPosition c plan, state := .switching (some p) 15 } else { r with state := .claimed p } := by
  by_cases htag : (s.pan p.slot).tag = p.tag <;> by_cases hrelay : hasRelay c = true <;>
    by_cases hdriver : r.driver = plannedPosition c plan <;>
    simp [State.followed, relayTo, h, htag, hrelay, hdriver, Config.switchTime]

theorem followed_of_not_claimed (h : ∀ p, r.state ≠ .claimed p) : s.followed c r = r := by
  unfold State.followed
  split
  · next o ho => exact absurd ho (h o)
  · rfl

end

/-! ## The coils of a released order (R10) -/

/-- A coil record after its order's release: it leaves the order and, unless it leaves with its home generator, follows its
owner's plan. -/
def State.released (s : State) (g : Gen) (disabling : Bool) (c : CoilNo) : Coil :=
  let leaves := disabling && decide (homeGen c = g)
  let r := (s.coil c).leaveOrder leaves
  if leaves = true then r else s.followed c r

/-- A coil that becomes CLAIMED by a release: it follows its owner's plan unless it leaves with its home generator. -/
def State.reclaimed (s : State) (g : Gen) (disabling : Bool) (c : CoilNo) (p : PanId) : Coil :=
  if disabling = true ∧ homeGen c = g then { s.coil c with state := .claimed p }
  else s.followed c { s.coil c with state := .claimed p }

section
variable {s : State} {g : Gen} {disabling : Bool} {c : CoilNo} {p : PanId} {n : Byte}

theorem released_eq_reclaimed (h : ∀ b, (s.coil c).leaveOrder b = { s.coil c with state := .claimed p }) :
    s.released g disabling c = s.reclaimed g disabling c p := by
  simp [State.released, State.reclaimed, h]

theorem released_driven (h : (s.coil c).state = .driven p n) : s.released g disabling c = s.reclaimed g disabling c p :=
  released_eq_reclaimed fun b => by simp [Coil.leaveOrder, h]

theorem released_releasing_owned (h : (s.coil c).state = .releasing (some p) n false) :
    s.released g disabling c = s.reclaimed g disabling c p :=
  released_eq_reclaimed fun b => by simp [Coil.leaveOrder, h]

theorem released_releasing_free (h : (s.coil c).state = .releasing none n false) :
    s.released g disabling c = { s.coil c with state := .free } := by
  simp [State.released, Coil.leaveOrder, h, State.followed]

theorem released_releasing_off {o : Option PanId} (h : (s.coil c).state = .releasing o n true) : s.released g disabling c =
    { s.coil c with driver := .home, state := .off (if (s.coil c).driver = .alternate then some 15 else none) } := by
  cases hd : (s.coil c).driver <;>
    simp [State.released, Coil.leaveOrder, h, State.followed, Coil.atRest, Coil.restRemaining, hd, Config.switchTime]

/-- A TRANSFER coil starts its switch, unless it leaves with its home generator. -/
theorem released_transfer {d : Position} (h : (s.coil c).state = .transfer p n d) (hd : d ≠ (s.coil c).driver) :
    s.released g disabling c = if disabling = true ∧ homeGen c = g then { s.coil c with state := .claimed p }
      else { s.coil c with driver := d, state := .switching (some p) 15 } := by
  by_cases hleaves : disabling = true ∧ homeGen c = g
  · simp [State.released, Coil.leaveOrder, h, hleaves]
  · have hfalse : (disabling && decide (homeGen c = g)) = false := by simpa using hleaves
    simp [State.released, Coil.leaveOrder, h, hfalse, hleaves, hd, State.followed, Config.switchTime]

end

theorem codeOk_leaveOrder (b : Bool) (r : Coil) : (r.leaveOrder b).codeOk = r.codeOk := by
  unfold Coil.leaveOrder
  split
  case h_5 => split <;> rfl
  all_goals rfl

theorem mem_orderCoils {s : State} {g : Gen} {n : Byte} {c : CoilNo} :
    c ∈ s.orderCoils g n ↔ (s.coil c).state.order = some n ∧ s.driverGen c = g := by
  simp [State.orderCoils, State.inOrder, mem_allCoils]

theorem releaseCoils_eq_of_sound {s : State} (hs : s.Sound) {g : Gen} {o : Order} (ho : (s.desk g).order = some o) (d : Bool) :
    releaseCoils g d s = .ok (s.withCoils fun c => if c ∈ s.orderCoils g o.number then s.released g d c else s.coil c) := by
  simp only [releaseCoils, ho]
  refine forEach_coilWork_of_sound (f := fun s c => s.released g d c) (fun c t ht => ?_) (fun t c k r hk => ?_) _
    (nodup_allCoils.filter _) hs
  · have hok : ((t.coil c).leaveOrder (d && decide (homeGen c = g))).codeOk = true := by rw [codeOk_leaveOrder, ht.coils c]
    rw [editCoil_of_sound ht c hok, Flow.ok_andThen]
    unfold State.released doIf
    generalize (d && decide (homeGen c = g)) = leaves at hok ⊢
    cases leaves
    · simp only [Bool.not_false, if_true, Bool.false_eq_true, if_false]
      rw [followPlan_of_sound (ht.setCoil c hok), State.coil_setCoil_self, setCoil_setCoil]
      exact ⟨rfl, (codeOk_followed _ c _).trans hok⟩
    · exact ⟨rfl, hok⟩
  · simp only [State.released, State.coil_setCoil, if_neg (Ne.symm hk)]
    rfl

/-! ## The energy of its legs (R145) -/

theorem rewritePan_of_sound {s : State} (hs : s.Sound) (n : Slot) {f : Pan → Pan} (hf : (f (s.pan n)).codeOk = true) :
    rewritePan n f s = .ok (s.setPan n (f (s.pan n))) := by
  simp only [rewritePan, checkPan_of_sound hs, Flow.ok_andThen, hs.writePan_eq n hf]

/-- The energy a leg adds to a pan. -/
def legEnergy (s : State) (issued : Nat) (legs : List Leg) (n : Slot) : Nat :=
  if (s.pan n).state = .free then 0
  else ((legs.filter fun l => decide (l.pan = s.panId n)).map fun l => l.power * (s.now - issued)).sum

theorem addEnergy_of_sound (issued : Nat) : ∀ (legs : List Leg) {s : State}, s.Sound →
    addEnergy legs issued s = .ok (s.withPans fun n => { s.pan n with energy := (s.pan n).energy + legEnergy s issued legs n })
  | [], s, _ => by
    have h : (fun n => { s.pan n with energy := (s.pan n).energy + legEnergy s issued [] n }) = s.pan :=
      funext fun n => by simp [legEnergy]
    rw [h, withPans_self]
    rfl
  | l :: ls, s, hs => by
    have hid : ∀ n, l.pan = s.panId n ↔ l.pan.slot = n ∧ (s.pan n).tag = l.pan.tag := fun n => by
      rw [State.panId, eq_comm, PanId.mk.injEq, eq_comm]
    unfold addEnergy
    rw [forEach]
    by_cases hadds : (s.pan l.pan.slot).state ≠ .free ∧ (s.pan l.pan.slot).tag = l.pan.tag
    · have hok : ({ s.pan l.pan.slot with energy := (s.pan l.pan.slot).energy + l.power * (s.now - issued) } : Pan).codeOk = true :=
        hs.pans _
      rw [if_pos hadds, rewritePan_of_sound hs _ hok, Flow.ok_andThen]
      have ih := addEnergy_of_sound issued ls (hs.setPan l.pan.slot hok)
      unfold addEnergy at ih
      rw [ih, withPans_setPan]
      refine congrArg (fun x => Flow.ok (s.withPans x)) (funext fun n => ?_)
      by_cases hn : n = l.pan.slot
      · subst hn
        have hsame : l.pan = s.panId l.pan.slot := (hid _).mpr ⟨rfl, hadds.2⟩
        simp [legEnergy, hadds.1, State.panId, Nat.add_assoc, hadds.2]
      · have hother : l.pan ≠ s.panId n := fun h => hn ((hid n).mp h).1.symm
        have hid' : ∀ q, (s.setPan l.pan.slot q).panId n = s.panId n := fun q => by simp [State.panId, State.pan_setPan, hn]
        simp [legEnergy, State.pan_setPan, hn, hother, hid']
    · rw [if_neg hadds, Flow.ok_andThen]
      have ih := addEnergy_of_sound issued ls hs
      unfold addEnergy at ih
      rw [ih]
      refine congrArg (fun x => Flow.ok (s.withPans x)) (funext fun n => ?_)
      by_cases hsame : l.pan = s.panId n
      · obtain ⟨rfl, htag⟩ := (hid n).mp hsame
        have hfree : (s.pan l.pan.slot).state = .free := by
          by_contra h
          exact hadds ⟨h, htag⟩
        simp [legEnergy, hfree]
      · simp [legEnergy, hsame]

theorem countEnergy_built {s : State} {g : Gen} {o : Order} (ho : (s.desk g).order = some o) (hb : o.state = .built) :
    countEnergy g s = .ok s := by
  obtain ⟨_, _, _, _, _⟩ := o
  cases hb
  simp [countEnergy, ho]

theorem countEnergy_issued {s : State} (hs : s.Sound) {g : Gen} {o : Order} {issued : Nat} (ho : (s.desk g).order = some o)
    (hi : o.state = .issued issued) : countEnergy g s =
      .ok (s.withPans fun n => { s.pan n with energy := (s.pan n).energy + legEnergy s issued o.legs n }) := by
  obtain ⟨_, _, _, _, _⟩ := o
  cases hi
  simp only [countEnergy, ho]
  exact addEnergy_of_sound issued _ hs

/-! ## Its charge (R108, R114) -/

theorem releaseOrder_of_sound {s : State} (hs : s.Sound) (g : Gen) (d : Bool) :
    releaseOrder g d s = (countEnergy g s).andThen (releaseCoils g d) := by
  rw [releaseOrder, checkOrder_of_sound hs, Flow.ok_andThen]

/-- Settles O48: the coils, the energies and the account of a released order. -/
theorem orderIsReleased : Obligations.OrderIsReleased := by
  unfold Obligations.OrderIsReleased
  intro s g o hs ho
  refine ⟨releaseOrder_of_sound hs g, fun d => ⟨_, releaseCoils_eq_of_sound hs ho d, by rw [withCoils_eq], fun c =>
    ⟨fun hc => ?_, fun hn hg hmoves => ?_⟩⟩, ?_, ?_⟩
  · rw [coil_withCoils, if_neg (mt mem_orderCoils.mp hc)]
  · rw [coil_withCoils, if_pos (mem_orderCoils.mpr ⟨hn, hg⟩)]
    have hclaimed : ∀ p, s.reclaimed g d c p = if d = true ∧ homeGen c = g then { s.coil c with state := .claimed p }
        else match (s.pan p.slot).plan with
        | some plan =>
          if (s.pan p.slot).tag = p.tag ∧ hasRelay c = true ∧ (s.coil c).driver ≠ plannedPosition c plan then
            { s.coil c with driver := plannedPosition c plan, state := .switching (some p) 15 }
          else { s.coil c with state := .claimed p }
        | none => { s.coil c with state := .claimed p } := fun p => by
      unfold State.reclaimed
      cases hplan : (s.pan p.slot).plan with
      | none => rw [followed_planless hplan]
      | some plan => rw [followed_planned hplan]
    cases hst : (s.coil c).state with
    | driven p m =>
      simp only [hst]
      exact (released_driven hst).trans (hclaimed p)
    | releasing owner m off =>
      cases off <;> cases owner <;> simp only [hst]
      case true.none | true.some => exact released_releasing_off hst
      case false.none => exact released_releasing_free hst
      case false.some p => exact (released_releasing_owned hst).trans (hclaimed p)
    | transfer p m d =>
      simp only [hst]
      exact released_transfer hst (hmoves p m d hst)
    | _ => simp [hst, CoilState.order] at hn
  · cases hst : o.state with
    | built => exact ⟨s, countEnergy_built ho hst, rfl, fun _ => rfl, nofun⟩
    | issued t =>
      refine ⟨_, countEnergy_issued hs ho hst, by rw [withPans_eq], nofun, fun issued hi n => ?_⟩
      cases hi
      rw [pan_withPans]
      rfl
  · have hcharge : s.charge g = o.charge := by rw [charge_eq, ho]; rfl
    unfold State.dropOrderPosting State.dropEnds Account.releaseEnds State.dropOrder Account.release
    rw [hcharge]
    cases hshed : (s.account (s.genPhase g)).shed with
    | none => simp [hshed]
    | some x =>
      by_cases hmet : (s.account (s.genPhase g)).load - o.charge ≤ (s.account (s.genPhase g)).target
      · simp [hshed, hmet, State.postShed, State.event]
      · simp [hshed, hmet]

end Sys2Proof.Machine

/-! PROOFS. The stop of a generator (R153), what follows it (R146, R152), and the confirmation of an order by FETCH (R144). -/

namespace Sys2Proof.Machine

/-! ## What the record-only work leaves -/

section
variable {s t : State} (h : RecordsOnly s t)
include h

theorem RecordsOnly.keeps {α : Type} (f : State → α)
    (hf : f { s with coils := t.coils, pans := t.pans, marks := t.marks } = f s) : f t = f s := (congrArg f h).trans hf

theorem RecordsOnly.queue : SameQueue s t := ⟨h.keeps State.now rfl, h.keeps State.events rfl, h.keeps State.eventsLost rfl⟩

theorem RecordsOnly.desk (g : Gen) : t.desk g = s.desk g := h.keeps (fun u => State.desk u g) rfl

theorem RecordsOnly.alloc (g : Gen) : t.alloc g = s.alloc g := h.keeps (fun u => State.alloc u g) rfl

theorem RecordsOnly.account (p : Phase) : t.account p = s.account p := h.keeps (fun u => State.account u p) rfl

theorem RecordsOnly.genPhase (g : Gen) : t.genPhase g = s.genPhase g := h.keeps (fun u => State.genPhase u g) rfl

theorem RecordsOnly.port (l : Link) : t.port l = s.port l := h.keeps (fun u => State.port u l) rfl

theorem RecordsOnly.charge (g : Gen) : t.charge g = s.charge g := by simp only [charge_eq, h.desk]

end

/-- The release of an order, every code being valid, changes coil and pan records only. -/
theorem releaseOrder_records {s : State} (hs : s.Sound) (g : Gen) (d : Bool) : ∃ t, releaseOrder g d s = .ok t ∧ t.Sound ∧
    RecordsOnly s t := by
  obtain ⟨t, ht, hsound, _⟩ := (run_releaseOrder g d s).onlyRecords hs
  exact ⟨t, ht, hsound, (recordsOnly_frame.releaseOrder g d s).of_ok ht⟩

/-! ## The last steps of a stop (R153) -/

/-- The state with the generator's order, if it holds one, dropped. -/
def State.orderGone (s : State) (g : Gen) : State := if (s.desk g).order.isSome then s.dropOrder g else s

/-- What a stop's last steps leave alone. -/
structure StopKeeps (s t : State) : Prop where
  coils : t.coils = s.coils
  pans : t.pans = s.pans
  windows : t.windows = s.windows
  permit : t.permit = s.permit
  params : t.params = s.params
  priority : t.priority = s.priority
  ports : t.ports = s.ports

section
variable (s : State) (g : Gen)

theorem orderGone_keeps : StopKeeps s (s.orderGone g) ∧ SameQueue s (s.orderGone g) ∧ (s.orderGone g).allocs = s.allocs ∧
    (s.orderGone g).phaseOf = s.phaseOf := by
  unfold State.orderGone
  split <;> exact ⟨⟨rfl, rfl, rfl, rfl, rfl, rfl, rfl⟩, ⟨rfl, rfl, rfl⟩, rfl, rfl⟩

/-- A stopped generator's desk. -/
def Desk.halted (cause : StopCause) (d : Desk) : Desk :=
  if cause = .disable then { d.emptied .stopped with state := .disabled }
  else { d.emptied .stopped with hold := some Config.stopHold, holdEnd := cause.holdEnd }

theorem finishStop_eq (cause : StopCause) : s.finishStop g cause =
    let u := (((s.orderGone g).emptyMemory g).setDesk g (((s.orderGone g).desk g).halted cause)).postStopped g cause
    if ((s.desk g).order.isSome && s.dropEnds g) = true then u.postShed .shedDone (u.genPhase g) else u := rfl

theorem finishStop_keeps (cause : StopCause) : StopKeeps s (s.finishStop g cause) := by
  obtain ⟨hcoils, hpans, hwindows, hpermit, hparams, hpriority, hports⟩ := (orderGone_keeps s g).1
  rw [finishStop_eq]
  generalize s.orderGone g = u at *
  simp only
  split <;>
  · constructor <;> simpa [State.postStopped, State.postShed, State.emptyMemory]

theorem alloc_finishStop (cause : StopCause) (h : Gen) : (s.finishStop g cause).alloc h =
    if h = g then { s.alloc g with memory := [] } else s.alloc h := by
  have halloc : ∀ k, (s.orderGone g).alloc k = s.alloc k := fun k => by
    simp only [State.alloc, (orderGone_keeps s g).2.2.1]
  rw [finishStop_eq]
  generalize s.orderGone g = u at *
  simp only
  split <;> simp [State.postStopped, State.postShed, State.emptyMemory, State.alloc_setAlloc, halloc]

theorem accounts_finishStop (cause : StopCause) : (s.finishStop g cause).accounts = (s.orderGone g).accounts :=
  (books_finishStop s g cause).1

/-- GENERATOR STOPPED is posted, and then SHED DONE where the release ends a shed. -/
theorem queue_finishStop (cause : StopCause) :
    let posted := s.postEvent ⟨.generatorStopped, s.now % 65536, none, some g, none, some (.stop cause)⟩
    SameQueue (if (s.desk g).order.isSome = true ∧ s.dropEnds g = true then
      posted.postEvent ⟨.shedDone, s.now % 65536, none, none, none, some (.phase (s.genPhase g))⟩ else posted)
      (s.finishStop g cause) := by
  obtain ⟨_, ⟨hnow, hevents, hlost⟩, _, hphase⟩ := orderGone_keeps s g
  rw [finishStop_eq]
  generalize s.orderGone g = u at *
  have hgen : u.genPhase g = s.genPhase g := by simp only [State.genPhase, hphase]
  have hstopped : SameQueue (s.postEvent ⟨.generatorStopped, s.now % 65536, none, some g, none, some (.stop cause)⟩)
      (((u.emptyMemory g).setDesk g ((u.desk g).halted cause)).postStopped g cause) := by
    rw [← hnow]
    exact SameQueue.postEvent (t := (u.emptyMemory g).setDesk g ((u.desk g).halted cause)) ⟨hnow, hevents, hlost⟩ _
  intro posted
  simp only [Bool.and_eq_true]
  split
  · have hdone : ∀ v : State, SameQueue posted v → v.genPhase g = s.genPhase g →
        SameQueue (posted.postEvent ⟨.shedDone, s.now % 65536, none, none, none, some (.phase (s.genPhase g))⟩)
          (v.postShed .shedDone (v.genPhase g)) := fun v hv hp => by
      rw [← State.now_postEvent s, ← hv.now, hp]
      exact hv.postEvent _
    exact hdone _ hstopped (by simp [State.postStopped, State.emptyMemory, hgen])
  · exact hstopped

end

/-! ## Stops with every code valid -/

/-- A stop completes: the order is released from the halted generator, and the last steps follow. -/
theorem stopGen_of_sound {s : State} (hs : s.Sound) (g : Gen) (cause : StopCause) : ∃ s1,
    releaseOrder g (decide (cause = .disable)) (s.setDesk g { s.desk g with state := .stopped }) = .ok s1 ∧
      RecordsOnly (s.setDesk g { s.desk g with state := .stopped }) s1 ∧ stopGen g cause s = .ok (s1.finishStop g cause) ∧
      (s1.finishStop g cause).Sound := by
  obtain ⟨s1, h1, hsound, hrecords⟩ := releaseOrder_records (sound_setDesk hs g (d := { s.desk g with state := .stopped })
    (hs.orders g)) g (decide (cause = .disable))
  refine ⟨s1, h1, hrecords, by rw [stopGen, h1]; rfl, ?_⟩
  exact (path_finishStop (w := .service) (D := fun _ => True) s1 g cause trivial (.inl rfl)).sound hsound

theorem holdEnd_eq (cause : StopCause) : cause.holdEnd = if cause = .restart then .absent else .joined := by
  cases cause <;> rfl

theorem setDesk_setDesk (s : State) (g : Gen) (d d' : Desk) : (s.setDesk g d).setDesk g d' = s.setDesk g d' := by
  simp only [State.setDesk, Vector.set_set]

section
variable {s s1 : State} {g : Gen} {cause : StopCause} (h : RecordsOnly (s.setDesk g { s.desk g with state := .stopped }) s1)
include h

theorem desk_stopped : (s1.finishStop g cause).desk g = { s.desk g with
    state := if cause = .disable then .disabled else .stopped
    desk := .empty, repeats := 0, order := none, lease := none, yield := none, collection := none
    hold := if cause = .disable then none else some 250
    holdEnd := if cause = .disable then (s.desk g).holdEnd else if cause = .restart then .absent else .joined } := by
  rw [desk_finishStop, if_pos rfl, h.desk, State.desk_setDesk_self, holdEnd_eq]
  rfl

theorem others_stopped {k : Gen} (hk : k ≠ g) : (s1.finishStop g cause).desk k = s.desk k ∧
    (s1.finishStop g cause).alloc k = s.alloc k := by
  rw [desk_finishStop, alloc_finishStop, if_neg hk, if_neg hk, h.desk, h.alloc, State.desk_setDesk, if_neg hk]
  exact ⟨rfl, rfl⟩

theorem alloc_stopped : (s1.finishStop g cause).alloc g = { s.alloc g with memory := [] } := by
  rw [alloc_finishStop, if_pos rfl, h.alloc]
  rfl

/-- Whether a stop ends a shed, from the state before it. -/
theorem dropEnds_stopped : (s1.desk g).order.isSome = (s.desk g).order.isSome ∧ s1.genPhase g = s.genPhase g ∧
    (s1.dropEnds g = true ↔ (s.account (s.genPhase g)).shed.isSome = true ∧
      (s.account (s.genPhase g)).load - s.charge g ≤ (s.account (s.genPhase g)).target) := by
  have hphase : s1.genPhase g = s.genPhase g := h.genPhase g
  have hcharge : s1.charge g = s.charge g := by rw [h.charge, charge_eq, charge_eq, State.desk_setDesk_self]
  refine ⟨by rw [h.desk, State.desk_setDesk_self], hphase, ?_⟩
  rw [State.dropEnds, hphase, h.account, hcharge, State.account_setDesk]
  simp [Account.releaseEnds]

end

/-- Settles O50: the steps of a stop. -/
theorem generatorStops : Obligations.GeneratorStops := by
  unfold Obligations.GeneratorStops
  intro s g cause hs _ _ _
  obtain ⟨s1, h1, hrecords, hstop, hsound⟩ := stopGen_of_sound hs g cause
  have hkeeps := finishStop_keeps s1 g cause
  obtain ⟨hsome, hphase, hends⟩ := dropEnds_stopped hrecords
  refine ⟨s1, _, h1, hstop, hsound, hkeeps.coils, hkeeps.pans, desk_stopped hrecords, alloc_stopped hrecords,
    fun k hk => others_stopped hrecords hk, ⟨?_, ?_⟩, hkeeps.windows.trans (hrecords.keeps State.windows rfl),
    hkeeps.permit.trans (hrecords.keeps State.permit rfl), hkeeps.params.trans (hrecords.keeps State.params rfl),
    hkeeps.priority.trans (hrecords.keeps State.priority rfl), hkeeps.ports.trans (hrecords.keeps State.ports rfl)⟩
  · rw [accounts_finishStop, State.orderGone, hsome]
  · obtain ⟨_, hevents, hlost⟩ := queue_finishStop s1 g cause
    have hnow : s1.now = s.now := hrecords.queue.now
    rw [hevents, hlost, hsome, hphase, hnow]
    exact ⟨congrArg State.events (if_congr (and_congr_right' hends) rfl rfl),
      congrArg State.eventsLost (if_congr (and_congr_right' hends) rfl rfl)⟩

/-! ## What follows a stop -/

/-- A stop that is no disabling, the re-plan pass and what settles: the generator's desk stays as the stop leaves it. -/
theorem stop_settles {s : State} (hs : s.Sound) (g : Gen) {cause : StopCause} (hc : cause ≠ .disable) : ∃ s1 s2 u,
    stopGen g cause s = .ok s1 ∧ replanPass s1 = .ok s2 ∧ settle s s2 = .ok u ∧ Settled s s2 u ∧
      u.desk g = { s.desk g with
        state := .stopped, desk := .empty, repeats := 0, order := none, lease := none,
        yield := none, collection := none, hold := some 250, holdEnd := cause.holdEnd } ∧
      u.alloc g = { s.alloc g with memory := [] } := by
  obtain ⟨s1, _, hrecords, hstop, hsound⟩ := stopGen_of_sound hs g cause
  have hdesk := desk_stopped (cause := cause) hrecords
  have halloc := alloc_stopped (cause := cause) hrecords
  generalize s1.finishStop g cause = v at hstop hsound hdesk halloc
  have hothers : ∀ (P : Gen → Prop), P g → ∀ k, ¬ k ≠ g → P k := fun P hP k hk => not_not.mp hk ▸ hP
  have hnone : HoldsNone (fun k => k ≠ g) v := hothers _ (by rw [hdesk])
  have hwaits : WaitsNone (fun k => k ≠ g) v := hothers _ (by rw [hdesk]; nofun)
  obtain ⟨s2, h2, hpath, hsound2⟩ := (run_replanPass (w := .orders) v hnone).completes hsound
  obtain ⟨u, hu, hpath', _⟩ := (run_settle s s2 (hnone.along hpath) (hwaits.along hpath)).completes hsound2
  obtain ⟨u', hu'⟩ := settled_sound s hsound2
  cases hu.symm.trans hu'.work
  have hself : ¬ g ≠ g := fun h => h rfl
  exact ⟨v, s2, u, hstop, h2, hu, hu', by rw [hpath'.desk hself, hpath.desk hself, hdesk, if_neg hc, if_neg hc, if_neg hc,
    ← holdEnd_eq], by rw [hpath'.alloc hself, hpath.alloc hself, halloc]⟩

/-! ## The lease and the yield timer (R151, R152) -/

/-- Settles O44: the end of a lease and of a yield timer. -/
theorem leaseAndYieldRunOut : Obligations.LeaseAndYieldRunOut := by
  unfold Obligations.LeaseAndYieldRunOut
  intro s g hr
  refine ⟨fun hl hi hst => ?_, fun hl hst => ?_, fun hs hy hst => ?_⟩
  · rw [exec_expiry (c := .leaseExpiry g) rfl rfl, expire_due hr hl]
    simp only [leaseExpires, hi, if_true, requestYield_ordered hst, State.desk_setDesk_self, setDesk_setDesk, Flow.state]
  · rw [exec_expiry (c := .leaseExpiry g) rfl rfl, expire_due hr hl]
    simp only [leaseExpires, requestYield_other (s := s) (g := g) (by simp [hst]), ite_self, Flow.state]
  · obtain ⟨s1, s2, u, hstop, h2, hu, hsettled, hdesk, halloc⟩ := stop_settles hs g (cause := .yieldTimeout) nofun
    refine ⟨s1, s2, u, ?_, hstop, h2, hsettled, hdesk, halloc⟩
    rw [exec_expiry (c := .yieldTimeout g) rfl rfl, expire_due hr hy]
    simp only [yieldExpires, hst, if_true, hstop, Flow.ok_andThen, h2, hu, Flow.state]

end Sys2Proof.Machine

/-! PROOFS. A FETCH on an ISSUED order: the confirmation that its own number makes, and the stop that another number makes
(R144, R146, R159). -/

namespace Sys2Proof.Machine

/-- The state after a confirmation of the order, the order's coils having left it. -/
def State.confirmed (w s : State) (g : Gen) (o : Order) : State :=
  { w with
    allocs := w.allocs.set g { s.alloc g with memory := o.legs.map fun l => ⟨l.pan, l.inverter⟩ }
    desks := w.desks.set g { s.desk g with state := .joined, order := none, lease := none, yield := none, lastConfirmed := o.number } }

section
variable {s s1 : State} {g : Gen} {o : Order} {n : Byte}

theorem records_of_releaseOrder {d : Bool} (h : releaseOrder g d s = .ok s1) : RecordsOnly s s1 :=
  (recordsOnly_frame.releaseOrder g d s).of_ok h

theorem alloc_dropOrderPosting (s : State) (g h : Gen) : (s.dropOrderPosting g).alloc h = s.alloc h := by
  unfold State.dropOrderPosting
  split
  · rw [State.postShed, State.alloc_postEvent]
    rfl
  · rfl

theorem confirm_eq (h : releaseOrder g false s = .ok s1) : confirm g o s = .ok ((s1.dropOrderPosting g).confirmed s g o) := by
  have hrecords := records_of_releaseOrder h
  have halloc : (s1.dropOrderPosting g).alloc g = s.alloc g := by rw [alloc_dropOrderPosting, hrecords.alloc]
  have hdesk : ∀ a, ((s1.dropOrderPosting g).setAlloc g a).desk g = { s.desk g with order := none } := fun a => by
    rw [State.desk_setAlloc, desk_dropOrderPosting, if_pos rfl, hrecords.desk]
  rw [confirm, h, Flow.ok_andThen]
  simp only [halloc, hdesk]
  rfl

theorem confirm_bad {v : State} (h : releaseOrder g false s = .safe v) : confirm g o s = .safe v := by
  rw [confirm, h]
  rfl

theorem fetch_confirms (hi : s.issuedOrder g = some o) {t : State} (h : confirm g o s = .ok t) :
    fetch g o.number s = delivery g o.number t := by
  simp only [fetch, hi, if_true, h]

theorem fetch_confirm_bad (hi : s.issuedOrder g = some o) {v : State} (h : confirm g o s = .safe v) :
    fetch g o.number s = (v, .refused .safe) := by
  simp only [fetch, hi, if_true, h]

theorem fetch_mismatch (hi : s.issuedOrder g = some o) (hn : n ≠ o.number) {t : State} (h : mismatchStop g s = .ok t) :
    fetch g n s = (t, .refused .orderMismatch) := by
  simp only [fetch, hi, hn, if_false, h]

theorem fetch_mismatch_bad (hi : s.issuedOrder g = some o) (hn : n ≠ o.number) {v : State} (h : mismatchStop g s = .safe v) :
    fetch g n s = (v, .refused .safe) := by
  simp only [fetch, hi, hn, if_false, h]

/-- The state after a confirmation holds no ISSUED order, and hears the link as before. -/
theorem confirmed_frame (h : releaseOrder g false s = .ok s1) :
    let t := (s1.dropOrderPosting g).confirmed s g o
    t.desk g = { s.desk g with state := .joined, order := none, lease := none, yield := none, lastConfirmed := o.number } ∧
      t.rstLow = s.rstLow ∧ t.ports = s.ports ∧ t.safe = s.safe := by
  have hrecords := records_of_releaseOrder h
  have hdrop : (s1.dropOrderPosting g).rstLow = s1.rstLow ∧ (s1.dropOrderPosting g).safe = s1.safe := by
    have hmoved := (path_dropPosting s1 g).unmoved
    exact ⟨hmoved.rstLow, hmoved.safe⟩
  refine ⟨by simp [State.confirmed, State.desk], hdrop.1.trans (hrecords.keeps State.rstLow rfl),
    (ports_dropOrderPosting s1 g).trans (hrecords.keeps State.ports rfl), hdrop.2.trans (hrecords.keeps State.safe rfl)⟩

end

/-- A FETCH that names the ISSUED order's number is a FETCH once the order is confirmed. -/
theorem exec_fetch_confirms {s s1 : State} {g : Gen} {o : Order} (hl : s.Listens (.gl g)) (hsafe : s.safe = false)
    (hst : (s.desk g).state.inService = true) (hi : s.issuedOrder g = some o) (h : releaseOrder g false s = .ok s1) :
    let t := (s1.dropOrderPosting g).confirmed s g o
    exec (.fetch (.gl g) [o.number]) s = exec (.fetch (.gl g) [o.number]) t ∧ t.issuedOrder g = none ∧ (s.Sound → t.Sound) := by
  have hconfirm := confirm_eq (o := o) h
  obtain ⟨hdesk, hrst, hports, hsafe'⟩ := confirmed_frame (o := o) h
  intro t
  have hnone : t.issuedOrder g = none := by simp only [State.issuedOrder, t, hdesk]
  have hserve : serve .fetch (.gl g) [o.number] s = serve .fetch (.gl g) [o.number] t := by
    rw [serve_fetch hsafe hst, serve_fetch (hsafe'.trans hsafe) (by rw [hdesk]; rfl), fetch_confirms hi hconfirm,
      fetch_delivers hnone (.inr (by rw [hdesk]))]
  have hlisten : t.Listens (.gl g) := ⟨hrst.trans hl.1, by
    have := hl.2
    simpa only [State.port, t, hports] using this⟩
  refine ⟨?_, hnone, fun hs => ?_⟩
  · rw [show Instr.fetch (.gl g) [o.number] = requestCommand .fetch (.gl g) [o.number] from rfl,
      exec_served (k := .fetch) hl rfl rfl nofun, exec_served (k := .fetch) hlisten rfl rfl nofun, hserve]
  · have hrun := serves_confirm g o s
    rw [hconfirm] at hrun
    obtain ⟨t', ht, _, hsound⟩ := hrun.completes hs
    rwa [← Flow.ok.inj ht] at hsound

/-- Settles O38: a FETCH of the ISSUED order's number, and one of another number. -/
theorem fetchConfirmsOrStops : Obligations.FetchConfirmsOrStops := by
  unfold Obligations.FetchConfirmsOrStops
  refine ⟨fun s g o n hl hsafe hst hi => ⟨fun hn v hv => ?_, fun hc => ?_, fun hn => ⟨fun u hu => ?_, fun v hv => ?_⟩⟩,
    fun s s1 g o hl hsafe hst hi h => exec_fetch_confirms hl hsafe hst hi h, fun s g hs => ?_, fun s g o n hl hs hsafe hst hi hn => ?_⟩
  · refine ⟨(run_releaseOrder (w := .orders) (D := fun _ => False) g false s).safe.1 v hv, ?_⟩
    exact exec_fetch hl hsafe hst (hn ▸ fetch_confirm_bad hi (confirm_bad hv))
  · rw [releaseOrder, checkOrder_bad (issuedOrder_eq hi).1 hc]
    rfl
  · exact exec_fetch hl hsafe hst (fetch_mismatch hi hn hu)
  · exact ⟨(serves_mismatchStop g s).safe.1 v hv, exec_fetch hl hsafe hst (fetch_mismatch_bad hi hn hv)⟩
  · obtain ⟨t, ht, _⟩ := releaseOrder_records hs g false
    exact ⟨t, ht⟩
  · obtain ⟨s1, s2, u, hstop, h2, hu, hsettled, hdesk, halloc⟩ := stop_settles hs g (cause := .orderMismatch) nofun
    have hwork : mismatchStop g s = .ok u := by rw [mismatchStop, hstop, Flow.ok_andThen, h2, Flow.ok_andThen, hu]
    obtain ⟨t, ht, hanswer⟩ := exec_fetch hl hsafe hst (fetch_mismatch hi hn hwork)
    exact ⟨s1, s2, u, t, ht, hstop, h2, hsettled, hanswer, hdesk, halloc⟩

end Sys2Proof.Machine

/-! PROOFS. SET CAP and SHED move a phase's target (R111 to R113, R115); the end of a relay switch (R13). -/

namespace Sys2Proof.Machine

/-! ## The target of a phase -/

theorem reported_of {gs : List Gen} {s t : State} (hs : s.Sound) (h : reportAll gs s = .ok t) : Reported gs s t := by
  obtain ⟨t', ht'⟩ := Run.reported (gs := gs) hs
  cases h.symm.trans ht'.work
  exact ht'

theorem settled_of {before s t : State} (hs : s.Sound) (h : settle before s = .ok t) : Settled before s t := by
  obtain ⟨t', ht'⟩ := settled_sound before hs
  cases h.symm.trans ht'.work
  exact ht'

theorem chargedOn_congr {s t : State} (hd : t.desks = s.desks) (hp : t.phaseOf = s.phaseOf) (p : Phase) :
    t.chargedOn p = s.chargedOn p := by
  have h : SameBooks s { s with desks := t.desks, phaseOf := t.phaseOf } := ⟨hd, rfl, hp⟩
  unfold State.chargedOn
  refine List.filter_congr fun g _ => ?_
  rw [show t.genPhase g = s.genPhase g from h.genPhase g, show t.charge g = s.charge g from h.charge g]

theorem sound_setAccount {s : State} (hs : s.Sound) (p : Phase) (a : Account) : (s.setAccount p a).Sound :=
  ⟨hs.coils, hs.pans, hs.orders, hs.levels, hs.marks⟩

theorem sound_postEvent {s : State} (hs : s.Sound) (e : Event) : (s.postEvent e).Sound :=
  (Update.post (w := .orders) (D := fun _ => True) s e).sound hs

section
variable {s : State} {p : Phase} {target deadline : Nat}

theorem repeatsShed_iff : s.repeatsShed p target deadline = true ↔
    ∃ x, (s.account p).shed = some x ∧ target = (s.account p).target ∧ deadline = x.deadline := by
  unfold State.repeatsShed
  cases (s.account p).shed with
  | none => simp
  | some x => simp

theorem settleCap_idle (h : (s.account p).shed = none) : s.settleCap p target =
    s.setAccount p { s.account p with target := target, committed := target, shed := none } := by
  simp [State.settleCap, h]

theorem settleCap_pending {x : ShedTimes} (h : (s.account p).shed = some x) : s.settleCap p target =
    (s.setAccount p { s.account p with target := target, committed := target, shed := none }).postEvent
      ⟨.shedDone, s.now % 65536, none, none, none, some (.phase p)⟩ := by
  simp [State.settleCap, h, State.postShed, State.event]

theorem startShed_idle (h : (s.account p).shed = none) : startShed p target deadline s =
    reportAll (s.chargedOn p) ((s.setAccount p { s.account p with target := target, shed := some ⟨deadline, deadline⟩ }).postEvent
      ⟨.shedStarted, s.now % 65536, none, none, none, some (.phase p)⟩) := by
  rw [← chargedOn_congr (s := s) (t := (s.setAccount p _).postEvent _) (State.desks_postEvent _ _) (State.phaseOf_postEvent _ _) p]
  simp only [startShed, h, Option.isSome_none, Bool.false_eq_true, if_false]
  rfl

theorem startShed_pending {x : ShedTimes} (h : (s.account p).shed = some x) : startShed p target deadline s =
    if target < (s.account p).target then reportAll (s.chargedOn p) (s.setAccount p
        { s.account p with target := target, shed := some ⟨deadline, deadline⟩ })
      else .ok (s.setAccount p { s.account p with target := target, shed := some ⟨deadline, deadline⟩ }) := by
  simp only [startShed, h, Option.isSome_some, if_true]
  rfl

/-- The target moves as R111 to R113 say, every code being valid and the budget in order. -/
theorem targetMoved_moveTarget (hs : s.Sound) (hb : BudgetOk s) :
    TargetMoved p target deadline s (moveTarget p target deadline s).state := by
  have hcut := sound_setAccount hs p { s.account p with target := target, shed := some ⟨deadline, deadline⟩ }
  unfold TargetMoved
  cases hshed : (s.account p).shed with
  | none =>
    have hrepeat : ¬ s.repeatsShed p target deadline = true := fun h => by
      obtain ⟨x, hx, _⟩ := repeatsShed_iff.mp h
      rw [hshed] at hx
      cases hx
    simp only [hshed]
    split
    · next hmet =>
      rw [moveTarget, if_neg hrepeat, if_pos hmet, settleCap_idle hshed]
      rfl
    · next hmet =>
      obtain ⟨u, hu⟩ := Run.reported (gs := s.chargedOn p) (sound_postEvent hcut ⟨.shedStarted, s.now % 65536, none, none, none,
        some (.phase p)⟩)
      rw [moveTarget, if_neg hrepeat, if_neg hmet, startShed_idle hshed, hu.work]
      exact hu
  | some x =>
    have hpending : (s.account p).target < (s.account p).load := (hb.2 p).2.2.2.2 (by rw [hshed]; rfl)
    have hrepeat : s.repeatsShed p target deadline = true ↔ target = (s.account p).target ∧ deadline = x.deadline := by
      rw [repeatsShed_iff, hshed]
      simp
    simp only [hshed]
    split
    · next hmet =>
      rw [moveTarget, if_neg (fun h => absurd (hrepeat.mp h).1 (by omega)), if_pos hmet, settleCap_pending hshed]
      rfl
    · next hmet =>
      split
      · next hsame =>
        rw [moveTarget, if_pos (hrepeat.mpr hsame)]
        rfl
      · next hnew =>
        rw [moveTarget, if_neg (mt hrepeat.mp hnew), if_neg hmet, startShed_pending hshed]
        split
        · obtain ⟨u, hu⟩ := Run.reported (gs := s.chargedOn p) hcut
          rw [hu.work]
          exact hu
        · rfl

end

theorem capFields_eq (s : State) (p : Phase) : s.capFields p = wordOf (s.account p).target ++ wordOf (s.account p).committed ++
    wordOf (s.account p).load ++ (match (s.account p).shed with
      | some x => 1 :: wordOf x.remaining
      | none => [0, 0, 0]) := by
  unfold State.capFields
  cases h : (s.account p).shed <;> simp [h, byteOf, bitOf, wordOf]

theorem serve_setCap {s : State} (hs : s.safe = false) (p : Phase) {lo hi : Byte} (hw : wordFrom lo hi ≤ 7400)
    (h10 : wordFrom lo hi % 10 = 0) (l : Link) : serve .setCap l [phaseCode p, lo, hi] s = setCap p (wordFrom lo hi) s := by
  simp [serve, serveSetCap, hs, phaseFrom_phaseCode, capFrom_eq_some hw h10]

theorem serve_shed {s : State} (hs : s.safe = false) (p : Phase) {lo hi dlo dhi : Byte} (hw : wordFrom lo hi ≤ 7400)
    (h10 : wordFrom lo hi % 10 = 0) (hd : 100 ≤ wordFrom dlo dhi) (hd' : wordFrom dlo dhi ≤ 10000) (l : Link) :
    serve .shed l [phaseCode p, lo, hi, dlo, dhi] s = shedTo p (wordFrom lo hi) (wordFrom dlo dhi) s := by
  simp [serve, serveShed, hs, phaseFrom_phaseCode, capFrom_eq_some hw h10, deadlineFrom_eq_some hd hd']

/-- Settles O40: the target moved by SET CAP and by SHED, and their answers. -/
theorem setCapAndShedMoveTheTarget : Obligations.SetCapAndShedMoveTheTarget := by
  unfold Obligations.SetCapAndShedMoveTheTarget
  intro s p lo hi dlo dhi hl hsafe hw h10
  refine ⟨?_, fun hd hd' => ?_⟩
  · obtain ⟨t, ht, ha⟩ := exec_answered (k := .setCap) hl rfl rfl nofun (serve_setCap hsafe p hw h10 .sl)
    refine ⟨_, t, ht, ?_, targetMoved_moveTarget⟩
    simp only [Answer.kind, Answer.fields, capFields_eq] at ha
    exact ha
  · obtain ⟨t, ht, ha⟩ := exec_answered (k := .shed) hl rfl rfl nofun (serve_shed hsafe p hw h10 hd hd' .sl)
    refine ⟨_, t, ht, ?_, targetMoved_moveTarget⟩
    generalize (moveTarget p (wordFrom lo hi) (wordFrom dlo dhi) s).state = u at ha ⊢
    by_cases h : (u.account p).shed.isSome = true
    · rw [if_pos h]
      simp only [h, if_true, Answer.kind, Answer.fields, capFields_eq] at ha
      exact ha
    · rw [if_neg h]
      simp only [h, Answer.kind, Answer.fields, capFields_eq] at ha
      exact ha

/-! ## The end of a relay switch (R13) -/

/-- What the end of a switch makes of a coil: it returns to rest where its alternate is out, else it follows its owner's plan. -/
def State.switched (s : State) (c : CoilNo) : Coil :=
  if s.strayed c = true then relayTo c .home (s.coil c).endSwitch else s.followed c (s.coil c).endSwitch

section
variable {s : State} {c : CoilNo}

theorem endSwitch_driver (r : Coil) : r.endSwitch.driver = r.driver ∧ r.endSwitch.codeOk = r.codeOk := by
  unfold Coil.endSwitch
  split <;> exact ⟨rfl, rfl⟩

theorem strayed_iff (s : State) (c : CoilNo) : s.strayed c = true ↔ (s.coil c).driver = .alternate ∧
    ∃ g, altGen c = some g ∧ ((s.desk g).state = .disabled ∨ (s.desk g).state = .absent) := by
  unfold State.strayed
  cases altGen c <;> simp

theorem endSwitch_of_sound (hs : s.Sound) : ∃ u, endSwitch c s = .ok u ∧ Settled s (s.setCoil c (s.switched c)) u := by
  obtain ⟨hdriver, hcode⟩ := endSwitch_driver (s.coil c)
  have hok : (s.coil c).endSwitch.codeOk = true := by rw [hcode, hs.coils c]
  have hended := hs.setCoil c hok
  have hstrayed : (s.setCoil c (s.coil c).endSwitch).strayed c = s.strayed c := by
    simp only [State.strayed, State.coil_setCoil_self, hdriver, State.desk_setCoil] <;> rfl
  have hnext : (if (s.setCoil c (s.coil c).endSwitch).strayed c then editCoil c (relayTo c .home) (s.setCoil c (s.coil c).endSwitch)
      else followPlan c (s.setCoil c (s.coil c).endSwitch) : Flow) = .ok (s.setCoil c (s.switched c)) := by
    rw [hstrayed, State.switched]
    split
    · rw [editCoil_of_sound hended c (by rw [codeOk_relayTo, State.coil_setCoil_self]; exact hok), State.coil_setCoil_self,
        setCoil_setCoil]
    · rw [followPlan_of_sound hended, State.coil_setCoil_self, setCoil_setCoil]
      rfl
  have hswitched : (s.switched c).codeOk = true := by
    unfold State.switched
    split
    · rw [codeOk_relayTo, hok]
    · rw [codeOk_followed, hok]
  obtain ⟨u, hu⟩ := settled_sound s (hs.setCoil c hswitched)
  refine ⟨u, ?_, hu⟩
  rw [endSwitch, editCoil_of_sound hs c hok, Flow.ok_andThen, hnext, Flow.ok_andThen, hu.work]

theorem endSwitch_owned {r : Coil} {o : PanId} {left : Nat} (h : r.state = .switching (some o) left) :
    r.endSwitch = { r with state := .claimed o } := by
  simp [Coil.endSwitch, h]

theorem endSwitch_unowned {r : Coil} {left : Nat} (h : r.state = .switching none left) : r.endSwitch = { r with state := .free } := by
  simp [Coil.endSwitch, h]

theorem endSwitch_off {r : Coil} {moving : Option Nat} (h : r.state = .off moving) : r.endSwitch = { r with state := .off none } := by
  simp [Coil.endSwitch, h]

/-- A strayed coil returns home, whoever owns it. -/
theorem switched_strayed (hrelay : hasRelay c = true) (hs : s.strayed c = true) {owner : Option PanId} {left : Nat}
    (h : (s.coil c).state = .switching owner left) :
    s.switched c = { s.coil c with driver := .home, state := .switching owner 15 } := by
  have hd := ((strayed_iff s c).mp hs).1
  rw [State.switched, if_pos hs]
  cases owner with
  | none => simp [endSwitch_unowned h, relayTo, hrelay, hd, Config.switchTime]
  | some o => simp [endSwitch_owned h, relayTo, hrelay, hd, Config.switchTime]

end

/-- Settles O41: what a coil is once its relay has stopped moving. -/
theorem switchEnds : Obligations.SwitchEnds := by
  unfold Obligations.SwitchEnds
  intro s c hr hs hrelay r strayed ends
  have hstrayed : s.strayed c = true ↔ strayed := strayed_iff s c
  have hends : s.untilSwitchEnd c = some 0 → ∀ q, s.switched c = q → ends q := fun h0 q hq => by
    obtain ⟨u, hu, hsettled⟩ := endSwitch_of_sound (c := c) hs
    refine ⟨u, ?_, hq ▸ hsettled⟩
    rw [exec_expiry (c := .switchEnd c) rfl rfl, expire_due hr h0, hu]
    rfl
  have huntil : ∀ owner, r.state = .switching owner 0 → s.untilSwitchEnd c = some 0 := fun owner h => by
    rw [State.untilSwitchEnd, h]
  refine ⟨fun owner h hst => hends (huntil _ h) _ (switched_strayed hrelay (hstrayed.mpr hst) h), fun h hst => hends (huntil _ h) _ ?_,
    fun o h hst => ⟨fun plan hp htag hd => hends (huntil _ h) _ ?_, fun hstays => hends (huntil _ h) _ ?_⟩, fun h => hends ?_ _ ?_⟩
  · rw [State.switched, if_neg (mt hstrayed.mp hst), endSwitch_unowned h, followed_of_not_claimed (fun p => by simp)]
  · rw [State.switched, if_neg (mt hstrayed.mp hst), endSwitch_owned h, followed_planned hp, if_pos ⟨htag, hrelay, hd.symm⟩]
  · rw [State.switched, if_neg (mt hstrayed.mp hst), endSwitch_owned h]
    cases hp : (s.pan o.slot).plan with
    | none => exact followed_planless hp
    | some plan => rw [followed_planned hp, if_neg fun ⟨htag, _, hd⟩ => hd (hstays plan hp htag).symm]
  · rw [State.untilSwitchEnd, h]
  · have hkept : ∀ q, q.state = .off none → relayTo c .home q = q := fun q hq => by
      unfold relayTo
      rw [hq]
      exact ite_self _
    rw [State.switched, endSwitch_off h, followed_of_not_claimed (fun p => by simp), hkept _ rfl, ite_self]

end Sys2Proof.Machine

/-! PROOFS. What a build leaves, block by block, every check code being valid (R127, R128, R132 to R137), and what it leaves where
no pan is heating-eligible (R85, R163). -/

namespace Sys2Proof.Machine

/-! ## Coil records alone -/

/-- Updates of coils, every code being valid, change coil records only. -/
theorem forEach_editCoil_coils {f : CoilNo → Coil → Coil} (hf : ∀ c r, r.codeOk = true → (f c r).codeOk = true) :
    ∀ (l : List CoilNo) {s : State}, s.Sound → ∃ t, forEach (fun c => editCoil c (f c)) l s = .ok t ∧ t.Sound ∧
      t = { s with coils := t.coils }
  | [], s, hs => ⟨s, rfl, hs, rfl⟩
  | c :: cs, s, hs => by
    have hok := hf c _ (hs.coils c)
    obtain ⟨t, ht, hsound, heq⟩ := forEach_editCoil_coils hf cs (hs.setCoil c hok)
    refine ⟨t, ?_, hsound, heq⟩
    rw [forEach, editCoil_of_sound hs c hok, Flow.ok_andThen, ht]

/-! ## A build (R127 to R137) -/

/-- The pans a build chooses. -/
def State.chosen (s : State) (g : Gen) : List Slot := s.choose (s.candidatesFor g)

/-- The legs of a build's order. -/
def State.builtLegs (s : State) (g : Gen) : List Leg := s.legsFor g (s.chosen g) (s.fits g (s.chosen g))

/-- The order a build writes. -/
def State.builtOrder (s : State) (g : Gen) : Order :=
  ⟨nextNumber (s.alloc g).lastNumber, .built, s.builtLegs g, ((s.builtLegs g).map (·.power)).sum, true⟩

/-- A pan record after a build. -/
def State.builtPan (s : State) (g : Gen) (n : Slot) : Pan :=
  Machine.builtPan g (s.candidatesFor g) (s.chosen g) (s.fits g (s.chosen g)) n (s.pan n)

/-- What a build leaves. -/
structure BuildLeaves (g : Gen) (s t : State) : Prop where
  sound : t.Sound
  frame : OrderWork s t
  desk : t.desk g = { s.desk g with order := some (s.builtOrder g) }
  alloc : t.alloc g = { s.alloc g with lastNumber := (s.builtOrder g).number }
  others : ∀ h, h ≠ g → t.desk h = s.desk h ∧ t.alloc h = s.alloc h
  pan : ∀ n, t.pan n = s.builtPan g n
  account : ∀ p, t.account p = if p = s.genPhase g then
    { s.account p with load := (s.account p).load + (s.builtOrder g).charge } else s.account p
  told : ∃ v : State, SameQueue s v ∧ v.permit = s.permit ∧ v.safe = s.safe ∧ (∀ n, v.pan n = s.builtPan g n) ∧ t = postPowers g s v

theorem sameBooks_postPowers (g : Gen) (before s : State) : SameBooks s (postPowers g before s) :=
  sameBooks_frame.postPowers g before s

theorem postPowers_keeps {α : Type} (f : State → α) (hf : ∀ s e, f (State.postEvent s e) = f s) (g : Gen) (before s : State) :
    f (postPowers g before s) = f s := by
  unfold postPowers
  refine List.foldlRecOn allSlots _ (motive := fun t => f t = f s) rfl fun t ht n _ => ?_
  repeat' split
  · exact ht
  · exact (hf _ _).trans ht
  · exact (hf _ _).trans ht
  · exact ht

theorem buildLeaves_of_sound {s : State} (hs : s.Sound) (g : Gen) : ∃ t, buildOrder g s = .ok t ∧ BuildLeaves g s t := by
  obtain ⟨t, ht, hpath, hsound⟩ := (run_buildOrder (w := .orders) (D := fun h => h = g) g s rfl).completes hs
  refine ⟨t, ht, ?_⟩
  have hlevels : doIf (!(s.chosen g).isEmpty) checkLevels s = .ok s := by
    unfold doIf
    split
    · exact checkLevels_of_sound hs
    · rfl
  have hedits : forEach (fun n => editPan n (builtPan g (s.candidatesFor g) (s.chosen g) (s.fits g (s.chosen g)) n)) allSlots s =
      .ok (s.withPans (s.builtPan g)) := by
    rw [forEach_editPan_of_sound (fun n p hp => (builtPan_codeOk _ _ _ _ n p).trans hp) _ nodup_allSlots hs]
    simp only [mem_allSlots, if_true]
    rfl
  have hsoundPans : (s.withPans (s.builtPan g)).Sound :=
    sound_withPans hs fun n => (builtPan_codeOk _ _ _ _ n _).trans (hs.pans n)
  generalize hu : s.withPans (s.builtPan g) = u at hedits hsoundPans
  obtain ⟨v, hv, _, hcoils⟩ := forEach_editCoil_coils (f := fun _ => Coil.taken ((u.writeOrder g (s.builtLegs g)).alloc g).lastNumber)
    (fun c r hr => (taken_codeOk _ r).trans hr) ((s.builtLegs g).flatMap (·.coils)) (hsoundPans.writeOrder g (s.builtLegs g))
  have hbuild : buildOrder g s = .ok (postPowers g s v) := by
    have hread : buildOrder g s = (doIf (!(s.chosen g).isEmpty) checkLevels s).andThen fun s1 =>
        (forEach (fun n => editPan n (builtPan g (s.candidatesFor g) (s.chosen g) (s1.fits g (s.chosen g)) n)) allSlots s1).andThen
          fun t => (takeCoils g (s1.legsFor g (s.chosen g) (s1.fits g (s.chosen g)))
            (t.writeOrder g (s1.legsFor g (s.chosen g) (s1.fits g (s.chosen g))))).andThen fun t => .ok (postPowers g s1 t) := by
      rw [buildOrder, readForBuild_of_sound hs]
      rfl
    rw [hread, hlevels, Flow.ok_andThen, hedits, Flow.ok_andThen, takeCoils]
    exact congrArg (fun f : Flow => f.andThen fun t => .ok (postPowers g s t)) hv
  cases Flow.ok.inj (ht.symm.trans hbuild)
  have hkeep : ∀ {α : Type} (f : State → α), f { u.writeOrder g (s.builtLegs g) with coils := v.coils } =
      f (u.writeOrder g (s.builtLegs g)) → f v = f (u.writeOrder g (s.builtLegs g)) := fun f hf => (congrArg f hcoils).trans hf
  have hmarks : u.marks.orders = false := by rw [hsoundPans.marks]; rfl
  have hpans : ∀ n, u.pan n = s.builtPan g n := fun n => by rw [← hu, pan_withPans]
  have hdesks : ∀ h, u.desk h = s.desk h := fun h => by rw [← hu, desk_withPans]
  have hallocs : ∀ h, u.alloc h = s.alloc h := fun h => by rw [← hu, alloc_withPans]
  have hphase : u.genPhase g = s.genPhase g := by rw [← hu, genPhase_withPans]
  have hvpan : ∀ n, v.pan n = s.builtPan g n := fun n => (hkeep (fun x => State.pan x n) rfl).trans (hpans n)
  refine ⟨hsound, hpath.orderWork, ?_, ?_, fun h hh => ⟨hpath.desk hh, hpath.alloc hh⟩, fun n => ?_, fun p => ?_, v, ?_, ?_, ?_,
    hvpan, rfl⟩
  · rw [(sameBooks_postPowers g s v).desk, hkeep (fun x => State.desk x g) rfl, desk_writeOrder, if_pos rfl, hdesks, hallocs, hmarks]
    rfl
  · rw [postPowers_keeps (fun x => State.alloc x g) (fun x e => State.alloc_postEvent x e g), hkeep (fun x => State.alloc x g) rfl]
    simp [State.writeOrder, hallocs, State.builtOrder]
  · rw [postPowers_keeps (fun x => State.pan x n) (fun x e => State.pan_postEvent x e n), hvpan]
  · rw [(sameBooks_postPowers g s v).account, hkeep (fun x => State.account x p) rfl, account_writeOrder, hphase]
    simp only [← hu, account_withPans]
    rfl
  · have hqueue : SameQueue u v := ⟨hkeep State.now rfl, hkeep State.events rfl, hkeep State.eventsLost rfl⟩
    refine SameQueue.trans ?_ hqueue
    rw [← hu]
    exact ⟨now_withPans s _, events_withPans s _, eventsLost_withPans s _⟩
  · rw [hkeep State.permit rfl, ← hu]
    exact permit_withPans s _
  · rw [hkeep State.safe rfl, ← hu]
    exact safe_withPans s _

end Sys2Proof.Machine

/-! PROOFS. The expiries of a pan: gone, boost ended, and the seconds of its timer to the completion (R60, R91, R95 to R97). -/

namespace Sys2Proof.Machine

/-! ## One pan written, every code being valid -/

theorem legHolders_setPan (s : State) (n : Slot) (p : Pan) (i : PanId) : (s.setPan n p).legHolders i = s.legHolders i := by
  simp only [State.legHolders, State.desk_setPan]

theorem legHolders_setPartSecond (s : State) (n : Slot) (ms : Nat) (i : PanId) : (s.setPartSecond n ms).legHolders i = s.legHolders i := by
  simp only [State.legHolders, State.desk_setPartSecond]

theorem panId_setPan {s : State} {n : Slot} {p : Pan} (h : p.tag = (s.pan n).tag) : (s.setPan n p).panId n = s.panId n := by
  simp only [State.panId, State.pan_setPan_self, h]

theorem setPan_setPan (s : State) (n : Slot) (p q : Pan) : (s.setPan n p).setPan n q = s.setPan n q := by
  simp only [State.setPan, Vector.set_set]

theorem setPan_setPartSecond (s : State) (n m : Slot) (ms : Nat) (p : Pan) :
    (s.setPartSecond m ms).setPan n p = (s.setPan n p).setPartSecond m ms := rfl

theorem sound_setPartSecond {s : State} (hs : s.Sound) (n : Slot) (ms : Nat) : (s.setPartSecond n ms).Sound :=
  ⟨hs.coils, hs.pans, hs.orders, hs.levels, hs.marks⟩

theorem timerDone_frame (p : Pan) : p.timerDone.tag = p.tag ∧ p.timerDone.codeOk = p.codeOk := by
  unfold Pan.timerDone
  split <;> exact ⟨rfl, rfl⟩

section
variable {s : State} (hs : s.Sound) (n : Slot)
include hs

/-- A completion: the record, TIMER DONE and the reports. -/
theorem completeTimer_of_sound : completeTimer n s = reportAll (s.legHolders (s.panId n)) ((s.setPan n (s.pan n).timerDone).postEvent
    ⟨.timerDone, s.now % 65536, some ⟨n, some (s.pan n).tag⟩, none, none, none⟩) := by
  obtain ⟨htag, hcode⟩ := timerDone_frame (s.pan n)
  rw [completeTimer_eq, editPan_of_sound hs n (hcode.trans (hs.pans n)), Flow.ok_andThen, legHolders_setPan, panId_setPan htag,
    State.pan_setPan_self, htag]
  rfl

theorem endBoost_of_sound : endBoost n s = reportAll (s.legHolders (s.panId n)) ((s.setPan n
    { s.pan n with level := 12, boost := none }).postEvent
    ⟨.boostEnded, s.now % 65536, some ⟨n, some (s.pan n).tag⟩, none, none, none⟩) := by
  rw [endBoost_eq, editPan_of_sound hs n (hs.pans n), Flow.ok_andThen, legHolders_setPan,
    panId_setPan (p := (s.pan n).boostDone) rfl, State.pan_setPan_self]
  rfl

theorem decrementTimer_of_sound : decrementTimer n s =
    .ok ((s.setPan n { s.pan n with timer := (s.pan n).timer.map (· - 1) }).setPartSecond n 0) := by
  rw [decrementTimer, editPan_of_sound hs n (hs.pans n), Flow.ok_andThen]

theorem sound_timerDone (e : Event) : ((s.setPan n (s.pan n).timerDone).postEvent e).Sound :=
  sound_postEvent (hs.setPan n ((timerDone_frame _).2.trans (hs.pans n))) e

/-- A completion and what settles then. -/
theorem completes_settle (before : State) : ∃ s1 u, completeTimer n s = .ok s1 ∧
    Reported (s.legHolders (s.panId n)) ((s.setPan n (s.pan n).timerDone).postEvent
      ⟨.timerDone, s.now % 65536, some ⟨n, some (s.pan n).tag⟩, none, none, none⟩) s1 ∧
    settle before s1 = .ok u ∧ Settled before s1 u := by
  obtain ⟨s1, h1⟩ := Run.reported (gs := s.legHolders (s.panId n)) (sound_timerDone hs n
    ⟨.timerDone, s.now % 65536, some ⟨n, some (s.pan n).tag⟩, none, none, none⟩)
  obtain ⟨u, hu⟩ := settled_sound before h1.sound
  exact ⟨s1, u, (completeTimer_of_sound hs n).trans h1.work, h1, hu.work, hu⟩

theorem panGone_of_sound : ∃ u, panGone n s = .ok u ∧
    Settled s ((({ s with priority := s.priority.erase n }.setPan n (Pan.freed (s.pan n).tag)).setPartSecond n 0).postEvent
      ⟨.panGone, s.now % 65536, some ⟨n, some (s.pan n).tag⟩, none, none, none⟩) u := by
  have hfreed := hs.setPan n (p := Pan.freed (s.pan n).tag) rfl
  have hsound : ((({ s with priority := s.priority.erase n }.setPan n (Pan.freed (s.pan n).tag)).setPartSecond n 0).postEvent
      ⟨.panGone, s.now % 65536, some ⟨n, some (s.pan n).tag⟩, none, none, none⟩).Sound :=
    sound_postEvent (s := ({ s with priority := s.priority.erase n }.setPan n (Pan.freed (s.pan n).tag)).setPartSecond n 0)
      ⟨hfreed.coils, hfreed.pans, hfreed.orders, hfreed.levels, hfreed.marks⟩ _
  obtain ⟨u, hu⟩ := settled_sound s hsound
  refine ⟨u, ?_, hu⟩
  rw [panGone, editPan_of_sound hs n rfl, Flow.ok_andThen, ← hu.work]
  simp only [State.postPan, State.panId, State.pan_setPan_self]
  rfl

end

/-! ## The time base -/

/-- What milliseconds that pass leave of a pan timer. -/
theorem elapse_frame (n : Slot) : ∀ (k : Nat) {s : State}, s.Sound → (elapse k s).Sound ∧ (elapse k s).rstLow = s.rstLow ∧
    (elapse k s).now = s.now + k ∧ ((elapse k s).pan n).timer = (s.pan n).timer ∧ (elapse k s).heating n = s.heating n
  | 0, _, hs => ⟨hs, rfl, rfl, rfl, rfl⟩
  | k + 1, s, hs => by
    obtain ⟨hsound, hrst, hnow, htimer, hheat⟩ := elapse_frame n k (sound_later hs)
    have hstep : elapse (k + 1) s = elapse k s.later := by rw [elapse, millisecond_of_sound hs]; rfl
    rw [hstep, hrst, hnow, htimer, hheat, rstLow_later, now_later, timer_later, heating_later]
    exact ⟨hsound, rfl, by omega, rfl, rfl⟩

theorem timer_set {s : State} {n : Slot} (timer : Option Nat) :
    let t := (s.setPan n { s.pan n with timer := timer }).setPartSecond n 0
    t.heating n = s.heating n ∧ (t.pan n).timer = timer ∧ t.partSecond n = 0 := by
  refine ⟨heating_congr ?_ ?_ ?_ ?_ rfl rfl, ?_, ?_⟩ <;> simp

/-- TIMER_DONE with seconds left is what it would be a second later. -/
theorem execTimerDone_second {s : State} {n : Slot} (hs : s.Sound) (hr : s.rstLow = false) (hh : s.heating n = true) {k : Nat}
    (ht : (s.pan n).timer = some (k + 1)) : ∃ u, execTimerDone n s = execTimerDone n u ∧ u.Sound ∧
      u.now = s.now + (1000 - s.partSecond n) ∧ (u.pan n).timer = some k ∧ u.partSecond n = 0 ∧ u.heating n = true := by
  obtain ⟨hsound, hrst, hnow, htimer, hheat⟩ := elapse_frame n (1000 - s.partSecond n) hs
  have huntil : s.untilSecond n = some (1000 - s.partSecond n) := by simp [State.untilSecond, hh, ht]
  have hdec := decrementTimer_of_sound hsound n
  generalize hv : elapse (1000 - s.partSecond n) s = v at hsound hrst hnow htimer hheat hdec
  have hminus : (v.pan n).timer.map (· - 1) = some k := by rw [htimer, ht]; rfl
  rw [hminus] at hdec
  have hokPan := hsound.setPan n (p := { v.pan n with timer := some k }) (hsound.pans n)
  obtain ⟨hheat', htimer', hpart'⟩ := timer_set (s := v) (n := n) (some k)
  refine ⟨(v.setPan n { v.pan n with timer := some k }).setPartSecond n 0, ?_, sound_setPartSecond hokPan n 0, hnow, htimer', hpart',
    hheat'.trans (hheat.trans hh)⟩
  have hrst' : ((v.setPan n { v.pan n with timer := some k }).setPartSecond n 0).rstLow = false := hrst.trans hr
  rw [execTimerDone, execTimerDone, if_neg (Bool.eq_false_iff.mp hr), if_neg (Bool.eq_false_iff.mp hrst'), htimer', ht]
  simp only [Option.getD_some, runTimer, huntil, hv, hdec, Flow.state]

theorem completeIfDue_idle {s : State} {n : Slot} (h : (s.pan n).timer ≠ some 0) : completeIfDue n s = .ok s :=
  if_neg fun hdue => h hdue.2

theorem completeIfDue_due {s : State} {n : Slot} (hh : s.heating n = true) (ht : (s.pan n).timer = some 0) :
    completeIfDue n s = completeTimer n s := if_pos ⟨hh, ht⟩

/-! ## The expiries -/

/-- Settles O42: a LOST pan gone, a boost ended, and the seconds of a pan timer. -/
theorem panExpiries : Obligations.PanExpiries := by
  unfold Obligations.PanExpiries
  refine ⟨fun s n hr hs => ⟨fun hst hl => ?_, fun hh hb => ?_⟩, fun s n hr hs hh => ?_⟩
  · obtain ⟨u, hwork, hu⟩ := panGone_of_sound hs n
    refine ⟨u, ?_, hu⟩
    rw [exec_expiry (c := .lostTimeExpiry n) rfl rfl, expire_due hr (by simp [State.untilGone, hst, hl]), hwork]
    rfl
  · obtain ⟨u, hu⟩ := Run.reported (gs := s.legHolders (s.panId n)) (sound_postEvent
      (hs.setPan n (p := { s.pan n with level := 12, boost := none }) (hs.pans n))
      ⟨.boostEnded, s.now % 65536, some ⟨n, some (s.pan n).tag⟩, none, none, none⟩)
    refine ⟨u, ?_, hu⟩
    rw [exec_expiry (c := .boostEnded n) rfl rfl, expire_due hr (by simp [State.untilBoostEnd, hh, hb]), endBoost_of_sound hs, hu.work]
    rfl
  · intro p completed
    have hdue : ∀ k, p.timer = some (k + 1) → s.partSecond n = 1000 → s.untilSecond n = some 0 := fun k ht hp => by
      simp [State.untilSecond, hh, show (s.pan n).timer = some (k + 1) from ht, hp]
    have hwritten : ∀ timer, ((s.setPan n { p with timer := timer }).setPartSecond n 0).Sound := fun timer =>
      sound_setPartSecond (hs.setPan n (p := { p with timer := timer }) (hs.pans n)) n 0
    have hdecrement : ∀ k, p.timer = some (k + 1) →
        decrementTimer n s = .ok ((s.setPan n { p with timer := some k }).setPartSecond n 0) := fun k ht => by
      rw [decrementTimer_of_sound hs, show (s.pan n).timer = some (k + 1) from ht]
      rfl
    refine ⟨fun k ht hp => ?_, fun ht hp => ?_, fun ht => ?_, fun k ht _ => execTimerDone_second hs hr hh ht⟩
    · obtain ⟨_, htimer, _⟩ := timer_set (s := s) (n := n) (some (k + 1))
      obtain ⟨u, hu⟩ := settled_sound s (hwritten (some (k + 1)))
      refine ⟨u, ?_, hu⟩
      rw [exec_expiry (c := .partSecondElapsed n) rfl rfl, expire_due hr (hdue _ ht hp), secondElapsed, hdecrement _ ht,
        Flow.ok_andThen, completeIfDue_idle (fun h => by rw [htimer] at h; simp at h), Flow.ok_andThen, hu.work]
      rfl
    · obtain ⟨hheat, htimer, _⟩ := timer_set (s := s) (n := n) (some 0)
      obtain ⟨s1, u, hwork, hreported, hset, hsettled⟩ := completes_settle (hwritten (some 0)) n s
      refine ⟨s1, u, ?_, ?_, hsettled⟩
      · rw [exec_expiry (c := .partSecondElapsed n) rfl rfl, expire_due hr (hdue _ ht hp), secondElapsed, hdecrement _ ht,
          Flow.ok_andThen, completeIfDue_due (hheat.trans hh) htimer, hwork, Flow.ok_andThen, hset]
        rfl
      · have hpan : ((s.setPan n { p with timer := some 0 }).setPartSecond n 0).pan n = { p with timer := some 0 } :=
          State.pan_setPan_self s n _
        have hid : ((s.setPan n { p with timer := some 0 }).setPartSecond n 0).panId n = s.panId n :=
          panId_setPan (p := { p with timer := some 0 }) rfl
        rw [hid, hpan, legHolders_setPartSecond, legHolders_setPan, setPan_setPartSecond, setPan_setPan] at hreported
        exact hreported
    · obtain ⟨s1, u, hwork, hreported, hset, hsettled⟩ := completes_settle hs n s
      refine ⟨s1, u, ?_, hreported, hsettled⟩
      show execTimerDone n s = _
      rw [execTimerDone, if_neg (Bool.eq_false_iff.mp hr), show (s.pan n).timer = some 0 from ht]
      simp only [Option.getD_some, runTimer, timerCompletes, completeIfDue_due hh ht, hwork, Flow.ok_andThen, hset, Flow.state]

end Sys2Proof.Machine

/-! PROOFS. PERMIT and the expiry of the permit (R85, R162, R163); HOLD and RESUME (R92, R93). -/

namespace Sys2Proof.Machine

/-! ## Heating eligibility (R85) -/

theorem heating_iff (s : State) (n : Slot) : s.heating n = true ↔ (s.pan n).state = .present ∧ (s.pan n).level ≠ 0 ∧
    (s.pan n).held = false ∧ (s.pan n).barred = false ∧ (∃ ms, s.permit = .running ms) ∧ s.safe = false := by
  have hrunning : s.permit.isRunning = true ↔ ∃ ms, s.permit = .running ms := by
    cases s.permit <;> simp [Permit.isRunning]
  simp only [State.heating, Bool.and_eq_true, decide_eq_true_eq, Bool.not_eq_true', hrunning, and_assoc]

theorem heating_of_expired {s : State} (h : s.permit = .expired) (n : Slot) : s.heating n = false := by
  rw [Bool.eq_false_iff, ne_eq, heating_iff]
  rintro ⟨_, _, _, _, ⟨ms, hms⟩, _⟩
  rw [h] at hms
  cases hms

/-! ## Builds where no pan is heating-eligible -/

section
variable {s : State} (hcold : ∀ n, s.heating n = false) (g : Gen)
include hcold

theorem waitBlocked_of_cold : s.waitBlocked g = false := by
  rw [Bool.eq_false_iff, ne_eq, waitBlocked_iff]
  rintro ⟨_, p, _, _, hh⟩
  rw [hcold] at hh
  cases hh

theorem builtLegs_of_cold : s.builtLegs g = [] := by
  have hcands : s.candidatesFor g = [] := by simp [State.candidatesFor, hcold]
  simp [State.builtLegs, State.chosen, hcands, State.choose, bestBy, State.legsFor]

end

/-- A WAITING desk builds an order with no legs, where no pan is heating-eligible; another is left. -/
theorem retestDesk_cold {s : State} (hs : s.Sound) (hexpired : s.permit = .expired) (g : Gen) : ∃ u, retestDesk g s = .ok u ∧
    u.Sound ∧ OrderWork s u ∧ (∀ h, h ≠ g → u.desk h = s.desk h) ∧ ((∀ e, (s.desk g).desk ≠ .waiting e) → u.desk g = s.desk g) ∧
    ∀ e, (s.desk g).desk = .waiting e → (u.desk g).desk = .complete e ∧ (u.desk g).collection = some s.params.collectionTime ∧
      ∃ o, (u.desk g).order = some o ∧ o.state = .built ∧ o.legs = [] ∧ o.charge = 0 := by
  obtain ⟨u, hu, hpath, hsound⟩ := (run_retestDesk (w := .orders) (D := fun h => h = g) g s (.inl rfl)).completes hs
  refine ⟨u, hu, hsound, hpath.orderWork, fun h hh => hpath.desk hh, fun hidle => ?_, fun e he => ?_⟩
  · rw [retestDesk_idle (.inl hidle)] at hu
    rw [Flow.ok.inj hu]
  · have hcold := heating_of_expired hexpired
    obtain ⟨t, ht, hleaves⟩ := buildLeaves_of_sound hs g
    rw [retestDesk_builds he (waitBlocked_of_cold hcold g), buildForWaiting_of_ok e ht] at hu
    cases hu
    rw [State.desk_setDesk_self, hleaves.desk, hleaves.frame.params]
    have hlegs := builtLegs_of_cold hcold g
    exact ⟨rfl, rfl, s.builtOrder g, rfl, rfl, hlegs, by simp [State.builtOrder, hlegs]⟩

/-- What the test of the WAITING desks leaves of a desk, where no pan is heating-eligible. -/
def ColdTest (s u : State) (g : Gen) : Prop :=
  (∀ e, (s.desk g).desk = .waiting e → (u.desk g).desk = .complete e ∧ (u.desk g).collection = some s.params.collectionTime ∧
    ∃ o, (u.desk g).order = some o ∧ o.state = .built ∧ o.legs = [] ∧ o.charge = 0) ∧
  ((∀ e, (s.desk g).desk ≠ .waiting e) → u.desk g = s.desk g)

theorem retestDesks_cold : ∀ (l : List Gen), l.Nodup → ∀ {s : State}, s.Sound → s.permit = .expired → ∃ u,
    forEach retestDesk l s = .ok u ∧ u.Sound ∧ OrderWork s u ∧ (∀ g, g ∉ l → u.desk g = s.desk g) ∧ ∀ g, g ∈ l → ColdTest s u g
  | [], _, s, hs, _ => ⟨s, rfl, hs, .refl s, fun _ _ => rfl, nofun⟩
  | g :: gs, hl, s, hs, hexpired => by
    obtain ⟨hg, hgs⟩ := List.nodup_cons.mp hl
    obtain ⟨t, ht, hsound, hwork, hothers, hidle, hwaits⟩ := retestDesk_cold hs hexpired g
    obtain ⟨u, hu, hsound', hwork', hout, hin⟩ := retestDesks_cold gs hgs hsound (hwork.permit.trans hexpired)
    refine ⟨u, by rw [forEach, ht, Flow.ok_andThen, hu], hsound', hwork.trans hwork', fun h hh => ?_, fun h hh => ?_⟩
    · rw [hout h fun hm => hh (List.mem_cons_of_mem _ hm), hothers h fun he => hh (he ▸ List.mem_cons_self)]
    · rcases List.mem_cons.mp hh with rfl | hm
      · have hsame : u.desk h = t.desk h := hout h hg
        exact ⟨fun e he => hsame ▸ hwaits e he, fun hn => hsame ▸ hidle hn⟩
      · have hne : h ≠ g := fun he => hg (he ▸ hm)
        have hcold := hin h hm
        rwa [ColdTest, hothers h hne, hwork.params] at hcold

/-! ## PERMIT and its expiry (R162, R163) -/

theorem serve_permit {s : State} (hs : s.safe = false) {period : Byte} (h1 : 1 ≤ period.toNat) (h60 : period.toNat ≤ 60) (l : Link) :
    let u := (settle s { s with permit := .running (period.toNat * 1000) }).state
    serve .permit l [period] s = (u, .done (u.permit.code :: wordOf u.permit.remaining)) := by
  simp only [serve, servePermit]
  rw [if_neg (Bool.eq_false_iff.mp hs), if_pos ⟨h1, h60⟩]
  rfl

theorem sound_permit {s : State} (hs : s.Sound) (p : Permit) : ({ s with permit := p } : State).Sound :=
  ⟨hs.coils, hs.pans, hs.orders, hs.levels, hs.marks⟩

theorem withPans_postEvent (s : State) (e : Event) (f : Slot → Pan) :
    (s.postEvent e).withPans f = (s.withPans f).postEvent e := by
  unfold State.postEvent
  rw [events_withPans]
  repeat' split
  all_goals simp only [withPans_eq]

theorem charged_congr {s t : State} (h : t.desks = s.desks) : t.charged = s.charged := by
  unfold State.charged
  refine List.filter_congr fun g _ => ?_
  rw [charge_eq, charge_eq, State.desk, State.desk, h]

/-- The permit's expiry holds every pan, reports each order with a charge and tests the WAITING desks (R163). -/
theorem permitExpires_of_sound {s : State} (hs : s.Sound) :
    let held : State := ({ s with
      permit := .expired
      pans := Vector.ofFn fun n => if (s.pan n).state ≠ PanState.free then { s.pan n with held := true } else s.pan n }).postEvent
        ⟨.permitExpired, s.now % 65536, none, none, none, none⟩
    ∃ s1 u, permitExpires s = .ok u ∧ Reported s.charged held s1 ∧ OrderWork s1 u ∧ u.Sound ∧ ∀ g, ColdTest s1 u g := by
  intro held
  have hposted : (({ s with permit := .expired } : State).post .permitExpired).Sound := sound_postEvent (sound_permit hs _) _
  have hpan : ∀ n, (({ s with permit := .expired } : State).post .permitExpired).pan n = s.pan n := fun n => State.pan_postEvent _ _ n
  have hedits : forEach (fun n => editPan n (fun p => { p with held := true }))
      (allSlots.filter fun n => decide (((({ s with permit := .expired } : State).post .permitExpired).pan n).state ≠ .free))
      (({ s with permit := .expired } : State).post .permitExpired) = .ok held := by
    rw [forEach_editPan_of_sound (f := fun _ p => { p with held := true }) (fun _ _ h => h) _ (nodup_allSlots.filter _) hposted]
    simp only [List.mem_filter, mem_allSlots, true_and, decide_eq_true_eq, hpan]
    rw [State.post, withPans_postEvent, withPans_eq]
    rfl
  have hheld : held.Sound := by
    obtain ⟨t, ht, _, hsound⟩ := (Run.forEach (fun n s => serves_editPan n (fun p => { p with held := true }) s)
      (allSlots.filter fun n => decide (((({ s with permit := .expired } : State).post .permitExpired).pan n).state ≠ .free))
      (({ s with permit := .expired } : State).post .permitExpired)).completes hposted
    exact Flow.ok.inj (ht.symm.trans hedits) ▸ hsound
  obtain ⟨s1, h1⟩ := Run.reported (gs := held.charged) hheld
  obtain ⟨u, hu, hsound, hwork, _, hcold⟩ := retestDesks_cold allGens nodup_allGens h1.sound (h1.frame.permit.trans (State.permit_postEvent _ _))
  refine ⟨s1, u, ?_, ?_, hwork, hsound, fun g => hcold g (mem_allGens g)⟩
  · rw [permitExpires_eq, holdAll, hedits, Flow.ok_andThen, h1.work, Flow.ok_andThen]
    exact hu
  · rwa [charged_congr (s := s) (by simp [held])] at h1

/-- Settles O27: heating eligibility, PERMIT, and the expiry of the permit. -/
theorem permitRunsAndExpires : Obligations.PermitRunsAndExpires := by
  unfold Obligations.PermitRunsAndExpires
  refine ⟨heating_iff, fun s period hl hsafe h1 h60 => ?_, fun s period hl hs hsafe h1 h60 => ?_, fun s hr hs hp => ?_⟩
  · exact exec_answered (k := .permit) hl rfl rfl nofun (serve_permit hsafe h1 h60 .pl)
  · obtain ⟨u, hu⟩ := settled_sound s (sound_permit hs (.running (period.toNat * 1000)))
    have hserve := serve_permit hsafe h1 h60 .pl
    simp only [hu.work, Flow.state, hu.frame.permit] at hserve
    obtain ⟨t, ht, ha⟩ := exec_answered (k := .permit) hl rfl rfl nofun hserve
    exact ⟨u, t, ht, hu, ha⟩
  · obtain ⟨s1, u, hwork, hreported, hframe, hsound, hcold⟩ := permitExpires_of_sound hs
    refine ⟨s1, u, ?_, hreported, hframe, hsound, fun g => ?_⟩
    · rw [exec_expiry (c := .permitExpired) rfl rfl, expire_due hr (by simp [State.untilPermitEnd, hp]), hwork]
      rfl
    · have hparams : s1.params = s.params := hreported.frame.params.trans (State.params_postEvent _ _)
      rw [← hparams]
      exact hcold g

end Sys2Proof.Machine

/-! PROOFS. HOLD and RESUME (R92, R93): the slots in turn, and one report for each order with a leg for a pan that was
heating-eligible. -/

namespace Sys2Proof.Machine

/-! ## SAFE entry -/

theorem Run.enters {w : Scope} {D : Gen → Prop} {s v : State} {f : Flow} (h : Run w D s f) (hv : f = .safe v) :
    ∃ b t, Path w D s t ∧ v = enterSafe b t := by
  obtain ⟨t, ht, hok | ⟨b, _, hbad⟩⟩ := h
  · rw [hv] at hok
    cases hok
  · rw [hv] at hbad
    exact ⟨b, t, ht, Flow.safe.inj hbad⟩

/-- SAFE entry leaves no slot HELD. -/
theorem heldMask_enterSafe (b : BadRecord) (s : State) : (enterSafe b s).heldMask = 0 := by
  have hheld : ∀ n, ((enterSafe b s).pan n).held = false := fun n => by rw [pan_enterSafe]; rfl
  generalize enterSafe b s = u at hheld
  simp only [State.heldMask, hheld]
  rfl

/-! ## HOLD, slot by slot -/

/-- An update of one pan that goes on leaves the other pans, the desks, the permit and SAFE. -/
theorem editPan_ok {n : Slot} {f : Pan → Pan} {s t : State} (h : editPan n f s = .ok t) :
    (∀ m, m ≠ n → t.pan m = s.pan m) ∧ t.desks = s.desks ∧ t.permit = s.permit ∧ t.safe = s.safe := by
  unfold editPan checkPan at h
  split at h
  · rw [Flow.ok_andThen] at h
    split at h <;> cases Flow.ok.inj h
    · exact ⟨fun _ _ => rfl, rfl, rfl, rfl⟩
    · refine ⟨fun m hm => ?_, rfl, rfl, rfl⟩
      rw [State.writePan, State.pan_setMarks, State.pan_setPan, if_neg hm]
  · cases h

/-- The generators with a leg for one of these pans that is heating-eligible. -/
def State.heatedHolders (s : State) (l : List Slot) : List Gen := (l.filter s.heating).flatMap fun n => s.legHolders (s.panId n)

theorem heatedHolders_congr {s t : State} {l : List Slot} (hpans : ∀ n ∈ l, t.pan n = s.pan n) (hdesks : t.desks = s.desks)
    (hpermit : t.permit = s.permit) (hsafe : t.safe = s.safe) : t.heatedHolders l = s.heatedHolders l := by
  have hfilter : l.filter t.heating = l.filter s.heating := List.filter_congr fun n hn => by
    simp only [State.heating, hpans n hn, hpermit, hsafe]
  unfold State.heatedHolders
  rw [hfilter]
  refine List.flatMap_congr fun n hn => ?_
  simp only [State.legHolders, State.panId, State.desk, hdesks, hpans n (List.mem_of_mem_filter hn)]

theorem heatedHolders_cons (s : State) (n : Slot) (l : List Slot) :
    s.heatedHolders (n :: l) = (if s.heating n then s.legHolders (s.panId n) else []) ++ s.heatedHolders l := by
  unfold State.heatedHolders
  by_cases h : s.heating n = true <;> simp [h]

/-- HOLD's slots in turn, then its reports. -/
theorem holdFrom_eq : ∀ (l : List Slot), l.Nodup → ∀ (gs : List Gen) (s : State),
    holdFrom l gs s = (forEach holdPan l s).andThen (reportAll (gs ++ s.heatedHolders l))
  | [], _, gs, s => by simp [holdFrom, forEach, State.heatedHolders, Flow.andThen]
  | n :: rest, hl, gs, s => by
    obtain ⟨hn, hrest⟩ := List.nodup_cons.mp hl
    rw [holdFrom, forEach, Flow.andThen_assoc, heatedHolders_cons, ← List.append_assoc]
    cases ht : holdPan n s with
    | safe v => rfl
    | ok t =>
      obtain ⟨hpans, hdesks, hpermit, hsafe⟩ := editPan_ok ht
      rw [Flow.ok_andThen, Flow.ok_andThen, holdFrom_eq rest hrest, heatedHolders_congr (fun m hm => hpans m fun he => hn (he ▸ hm))
        hdesks hpermit hsafe]

theorem occupied_maskSlots (s : State) (mask : Byte) : s.occupied (maskSlots mask) =
    allSlots.filter fun n => mask.getLsbD n.val && decide ((s.pan n).state ≠ .free) := by
  rw [State.occupied, maskSlots, List.filter_filter]
  exact List.filter_congr fun n _ => Bool.and_comm _ _

/-! ## The requests -/

section
variable {s : State} (hs : s.safe = false) (mask : Byte) (l : Link)
include hs

theorem serve_hold : serve .hold l [mask] s = ((holdSlots (maskSlots mask) s).state, .done [(holdSlots (maskSlots mask) s).state.heldMask]) := by
  simp [serve, serveHold, hs]

theorem serve_resume : serve .resume l [mask] s =
    ((resumeSlots (maskSlots mask) s).state, .done [(resumeSlots (maskSlots mask) s).state.heldMask]) := by
  simp [serve, serveResume, hs]

end

theorem marked_of_sound {s : State} (hs : s.Sound) {l : List Slot} (hl : l.Nodup) (held : Bool) :
    let t : State := { s with pans := Vector.ofFn fun n => if n ∈ l then { s.pan n with held := held } else s.pan n }
    forEach (fun n => editPan n fun p => { p with held := held }) l s = .ok t ∧ t.Sound := by
  have hedits := forEach_editPan_of_sound (f := fun _ p => { p with held := held }) (fun _ _ h => h) l hl hs
  obtain ⟨t, ht, _, hsound⟩ := (Run.forEach (fun n s => serves_editPan n (fun p => { p with held := held }) s) l s).completes hs
  rw [withPans_eq] at hedits
  exact ⟨hedits, Flow.ok.inj (ht.symm.trans hedits) ▸ hsound⟩

theorem sound_raiseAll {s : State} (hs : s.Sound) (l : List Slot) : (s.raiseAll l).Sound :=
  ⟨hs.coils, hs.pans, hs.orders, hs.levels, hs.marks⟩

/-- Settles O29: what HOLD and RESUME write, report and answer. -/
theorem holdAndResume : Obligations.HoldAndResume := by
  unfold Obligations.HoldAndResume
  intro s mask hl hsafe
  have hnamed := occupied_maskSlots s mask
  have hnodup : (s.occupied (maskSlots mask)).Nodup := (nodup_allSlots.filter _).filter _
  have hhold : holdSlots (maskSlots mask) s = ((forEach (fun n => editPan n fun p => { p with held := true })
      (s.occupied (maskSlots mask)) s).andThen fun x => (reportAll (s.heatedHolders (s.occupied (maskSlots mask))) x).andThen (settle s)) := by
    rw [holdSlots, holdFrom_eq _ hnodup, Flow.andThen_assoc]
    rfl
  have hresume : resumeSlots (maskSlots mask) s = ((forEach (fun n => editPan n fun p => { p with held := false })
      (s.occupied (maskSlots mask)) s).andThen fun x => settle s (x.raiseAll (s.occupied (maskSlots mask)))) := rfl
  have hsh := serve_hold hsafe mask .pl
  have hsr := serve_resume hsafe mask .pl
  have hrh := serves_holdSlots (maskSlots mask) s
  have hrr := serves_resumeSlots (maskSlots mask) s
  rw [hhold] at hsh hrh
  rw [hresume] at hsr hrr
  rw [hnamed] at hsh hsr hrh hrr hnodup
  refine ⟨exec_answered (k := .hold) hl rfl rfl nofun hsh, exec_answered (k := .resume) hl rfl rfl nofun hsr, fun v hv => ?_,
    fun hs => ?_, fun hs => ?_⟩
  · have hsafe' : v.safe = true ∧ ∃ b t, v = enterSafe b t := by
      rcases hv with hv | hv
      · obtain ⟨b, t, _, ht⟩ := hrh.enters hv
        exact ⟨hrh.safe.1 v hv, b, t, ht⟩
      · obtain ⟨b, t, _, ht⟩ := hrr.enters hv
        exact ⟨hrr.safe.1 v hv, b, t, ht⟩
    obtain ⟨hsafe', b, t, rfl⟩ := hsafe'
    exact ⟨hsafe', heldMask_enterSafe b t⟩
  · obtain ⟨hmark, hsound⟩ := marked_of_sound hs hnodup true
    obtain ⟨s1, h1⟩ := Run.reported (gs := s.heatedHolders _) hsound
    obtain ⟨u, hu⟩ := settled_sound s h1.sound
    rw [hmark, Flow.ok_andThen, h1.work, Flow.ok_andThen, hu.work] at hsh
    obtain ⟨t, ht, ha⟩ := exec_answered (k := .hold) hl rfl rfl nofun hsh
    exact ⟨s1, u, t, ht, h1, hu, ha⟩
  · obtain ⟨hmark, hsound⟩ := marked_of_sound hs hnodup false
    obtain ⟨u, hu⟩ := settled_sound s (sound_raiseAll hsound _)
    rw [hmark, Flow.ok_andThen, hu.work] at hsr
    obtain ⟨t, ht, ha⟩ := exec_answered (k := .resume) hl rfl rfl nofun hsr
    exact ⟨u, t, ht, hu, ha⟩

end Sys2Proof.Machine

/-! PROOFS. Several generators stopped in turn: STOP ALL (R94) and the deadline of a shed (R117). -/

namespace Sys2Proof.Machine

/-! ## Stops in turn -/

/-- A desk after a stop that is no disabling. -/
def Desk.stoppedBy (cause : StopCause) (d : Desk) : Desk :=
  { d with state := .stopped, desk := .empty, repeats := 0, order := none, lease := none, yield := none, collection := none
           hold := some 250, holdEnd := cause.holdEnd }

/-- What stops in turn of these generators leave. -/
structure Stops (cause : StopCause) (l : List Gen) (s t : State) : Prop where
  sound : t.Sound
  budget : BudgetOk t
  phase : t.phaseOf = s.phaseOf
  stopped : ∀ g, g ∈ l → t.desk g = (s.desk g).stoppedBy cause ∧ t.alloc g = { s.alloc g with memory := [] }
  others : ∀ g, g ∉ l → t.desk g = s.desk g ∧ t.alloc g = s.alloc g
  frame : (∀ g, g ∈ l → (s.desk g).state.isOut = false) → OrderWork s t

theorem stopGen_stops {s : State} (hs : s.Sound) (hb : BudgetOk s) (g : Gen) {cause : StopCause} (hc : cause ≠ .disable) :
    ∃ t, stopGen g cause s = .ok t ∧ Stops cause [g] s t := by
  obtain ⟨s1, _, hrecords, hstop, hsound⟩ := stopGen_of_sound hs g cause
  have hdesk := desk_stopped (cause := cause) hrecords
  rw [if_neg hc, if_neg hc, if_neg hc, ← holdEnd_eq] at hdesk
  obtain ⟨t, ht, hpath, _⟩ := (serves_stopGen g cause s).completes hs
  cases Flow.ok.inj (ht.symm.trans hstop)
  refine ⟨_, hstop, hsound, (stopGen_keeps g cause s hb).1 _ hstop, hpath.unmoved.phaseOf, fun h hh => ?_, fun h hh => ?_,
    fun hin => ?_⟩
  · cases List.mem_singleton.mp hh
    exact ⟨hdesk, alloc_stopped hrecords⟩
  · exact others_stopped hrecords (fun he => hh (List.mem_singleton.mpr he))
  · obtain ⟨t', ht', hpath', _⟩ := (run_stopGen (w := .orders) (D := fun _ => True) g cause s trivial
      (.inr ⟨hin g List.mem_cons_self, hc⟩)).completes hs
    exact Flow.ok.inj (ht'.symm.trans hstop) ▸ hpath'.orderWork

theorem stops_of_sound {cause : StopCause} (hc : cause ≠ .disable) : ∀ (l : List Gen), l.Nodup → ∀ {s : State}, s.Sound → BudgetOk s →
    ∃ t, forEach (fun g => stopGen g cause) l s = .ok t ∧ Stops cause l s t
  | [], _, s, hs, hb => ⟨s, rfl, hs, hb, rfl, nofun, fun _ _ => ⟨rfl, rfl⟩, fun _ => .refl s⟩
  | g :: gs, hl, s, hs, hb => by
    obtain ⟨hg, hgs⟩ := List.nodup_cons.mp hl
    obtain ⟨t, ht, hfirst⟩ := stopGen_stops hs hb g hc
    obtain ⟨u, hu, hrest⟩ := stops_of_sound hc gs hgs hfirst.sound hfirst.budget
    refine ⟨u, by rw [forEach, ht, Flow.ok_andThen, hu], hrest.sound, hrest.budget, hrest.phase.trans hfirst.phase, fun h hh => ?_,
      fun h hh => ?_, fun hin => ?_⟩
    · rcases List.mem_cons.mp hh with rfl | hm
      · obtain ⟨hd, ha⟩ := hrest.others h hg
        rw [hd, ha]
        exact hfirst.stopped h List.mem_cons_self
      · obtain ⟨hd, ha⟩ := hrest.stopped h hm
        obtain ⟨hd', ha'⟩ := hfirst.others h fun hs => hg (List.mem_singleton.mp hs ▸ hm)
        rw [hd, ha, hd', ha']
        exact ⟨rfl, rfl⟩
    · obtain ⟨hd, ha⟩ := hrest.others h fun hm => hh (List.mem_cons_of_mem _ hm)
      obtain ⟨hd', ha'⟩ := hfirst.others h fun hs => hh (List.mem_singleton.mp hs ▸ List.mem_cons_self)
      exact ⟨hd.trans hd', ha.trans ha'⟩
    · refine (hfirst.frame fun h hh => hin h (List.mem_singleton.mp hh ▸ List.mem_cons_self)).trans (hrest.frame fun h hh => ?_)
      rw [(hfirst.others h fun hs => hg (List.mem_singleton.mp hs ▸ hh)).1]
      exact hin h (List.mem_cons_of_mem _ hh)

/-! ## The order in which a deadline stops (R117) -/

/-- The first generator is stopped before the second. -/
def State.stopsBefore (s : State) (a b : Gen) : Prop := s.charge b < s.charge a ∨ (s.charge a = s.charge b ∧ b < a)

theorem stopsBefore_trans {s : State} {a b c : Gen} (hab : s.stopsBefore a b) (hbc : s.stopsBefore b c) : s.stopsBefore a c := by
  rcases hab with h | ⟨h, hlt⟩ <;> rcases hbc with h' | ⟨h', hlt'⟩
  · exact .inl (h'.trans h)
  · exact .inl (h' ▸ h)
  · exact .inl (h ▸ h')
  · exact .inr ⟨h.trans h', hlt'.trans hlt⟩

theorem placeStop_perm (s : State) (g : Gen) : ∀ l : List Gen, (s.placeStop g l).Perm (g :: l)
  | [] => .refl _
  | h :: rest => by
    unfold State.placeStop
    split
    · exact .refl _
    · exact ((placeStop_perm s g rest).cons h).trans (.swap g h rest)

theorem placeStop_sorted (s : State) (g : Gen) : ∀ {l : List Gen}, (∀ h ∈ l, h < g) → l.Pairwise s.stopsBefore →
    (s.placeStop g l).Pairwise s.stopsBefore
  | [], _, _ => List.pairwise_singleton _ _
  | h :: rest, hlt, hl => by
    obtain ⟨hh, hrest⟩ := List.pairwise_cons.mp hl
    unfold State.placeStop
    split
    · next hle =>
      have hgh : s.stopsBefore g h := (Nat.lt_or_eq_of_le hle).imp id fun he => ⟨he.symm, hlt h List.mem_cons_self⟩
      exact List.pairwise_cons.mpr ⟨fun x hx => (List.mem_cons.mp hx).elim (fun he => he ▸ hgh)
        fun hm => stopsBefore_trans hgh (hh x hm), hl⟩
    · next hgt =>
      refine List.pairwise_cons.mpr ⟨fun x hx => ?_, placeStop_sorted s g (fun k hk => hlt k (List.mem_cons_of_mem _ hk)) hrest⟩
      rcases List.mem_cons.mp ((placeStop_perm s g rest).mem_iff.mp hx) with rfl | hm
      · exact .inl (not_le.mp hgt)
      · exact hh x hm

theorem foldl_placeStop (s : State) : ∀ (l acc : List Gen), l.Pairwise (· < ·) → (∀ a ∈ acc, ∀ b ∈ l, a < b) →
    acc.Pairwise s.stopsBefore → (l.foldl (fun gs g => s.placeStop g gs) acc).Pairwise s.stopsBefore ∧
      (l.foldl (fun gs g => s.placeStop g gs) acc).Perm (l.reverse ++ acc)
  | [], acc, _, _, hacc => ⟨hacc, .refl _⟩
  | g :: rest, acc, hl, hlt, hacc => by
    obtain ⟨hg, hrest⟩ := List.pairwise_cons.mp hl
    obtain ⟨hsorted, hperm⟩ := foldl_placeStop s rest (s.placeStop g acc) hrest (fun a ha b hb => by
        rcases List.mem_cons.mp ((placeStop_perm s g acc).mem_iff.mp ha) with rfl | hm
        · exact hg b hb
        · exact hlt a hm b (List.mem_cons_of_mem _ hb))
      (placeStop_sorted s g (fun h hh => hlt h hh g List.mem_cons_self) hacc)
    refine ⟨hsorted, hperm.trans ?_⟩
    rw [List.reverse_cons, List.append_assoc]
    exact (placeStop_perm s g acc).append_left _

theorem sorted_allGens : allGens.Pairwise (· < ·) := List.pairwise_lt_finRange 4

/-- The generators of a phase with a charge, each once, in the order of R117. -/
theorem stopOrder_spec (s : State) (p : Phase) : (∀ g, g ∈ s.stopOrder p ↔ s.genPhase g = p ∧ s.charge g ≠ 0) ∧
    (s.stopOrder p).Pairwise s.stopsBefore ∧ (s.stopOrder p).Nodup := by
  obtain ⟨hsorted, hperm⟩ := foldl_placeStop s (s.chargedOn p) [] (sorted_allGens.filter _) (fun _ h => by cases h) .nil
  rw [List.append_nil] at hperm
  refine ⟨fun g => ?_, hsorted, ?_⟩
  · rw [State.stopOrder, hperm.mem_iff, List.mem_reverse]
    simp [State.chargedOn, mem_allGens]
  · exact hperm.nodup_iff.mpr (List.nodup_reverse.mpr (nodup_allGens.filter _))

/-! ## A shed's deadline (R117) -/

/-- Stops while the shed is pending are stops of a first part of the list. -/
theorem stopsWhilePending_of_sound (p : Phase) : ∀ (l : List Gen) {s : State}, s.Sound → BudgetOk s → ∃ k s1, k ≤ l.length ∧
    forEach (stopWhilePending p) l s = .ok s1 ∧ forEach (fun g => stopGen g .shed) (l.take k) s = .ok s1 ∧
    (∀ j, j < k → ∃ y, forEach (fun g => stopGen g .shed) (l.take j) s = .ok y ∧ (y.account p).shed.isSome = true) ∧
    ((s1.account p).shed = none ∨ k = l.length)
  | [], s, _, _ => ⟨0, s, le_refl _, rfl, rfl, nofun, .inr rfl⟩
  | g :: rest, s, hs, hb => by
    by_cases hshed : (s.account p).shed.isSome = true
    · obtain ⟨t, ht, hfirst⟩ := stopGen_stops hs hb g (cause := .shed) nofun
      obtain ⟨k, s1, hk, hpending, hstops, hprefix, hend⟩ := stopsWhilePending_of_sound p rest hfirst.sound hfirst.budget
      refine ⟨k + 1, s1, Nat.succ_le_succ hk, ?_, ?_, fun j hj => ?_, hend.imp id (congrArg (· + 1))⟩
      · rw [forEach, stopWhilePending, if_pos hshed, ht, Flow.ok_andThen, hpending]
      · rw [List.take_succ_cons, forEach, ht, Flow.ok_andThen, hstops]
      · cases j with
        | zero => exact ⟨s, rfl, hshed⟩
        | succ j =>
          obtain ⟨y, hy, hsome⟩ := hprefix j (Nat.lt_of_succ_lt_succ hj)
          exact ⟨y, by rw [List.take_succ_cons, forEach, ht, Flow.ok_andThen, hy], hsome⟩
    · have hidle : ∀ l, forEach (stopWhilePending p) l s = .ok s := fun l => by
        induction l with
        | nil => rfl
        | cons h hs ih => rw [forEach, stopWhilePending, if_neg hshed, Flow.ok_andThen, ih]
      exact ⟨0, s, Nat.zero_le _, hidle _, rfl, nofun, .inl (Option.not_isSome_iff_eq_none.mp hshed)⟩

/-- No shed is pending on a phase without charges. -/
theorem shed_none_of_idle {s : State} (hb : BudgetOk s) {p : Phase} (h : ∀ g, s.genPhase g = p → s.charge g = 0) :
    (s.account p).load = 0 ∧ (s.account p).shed = none := by
  obtain ⟨hload, _, _, _, hshed⟩ := hb.2 p
  have hzero : s.loadOf p = 0 := by
    rw [loadOf_eq_sum]
    exact Finset.sum_eq_zero fun g _ => by
      split
      · next hp => exact h g hp
      · rfl
  have hload' : (s.account p).load = 0 := hload.trans hzero
  exact ⟨hload', Option.not_isSome_iff_eq_none.mp fun hsome => absurd (hshed hsome) (by omega)⟩

/-- Work after stops, on orders and at the end of the event, leaves the stopped desks. -/
theorem replan_settles_stopped {cause : StopCause} {l : List Gen} {s t : State} (before : State) (h : Stops cause l s t) :
    ∃ s2 u, replanPass t = .ok s2 ∧ settle before s2 = .ok u ∧ Settled before s2 u ∧ ∀ g, g ∈ l → u.desk g = t.desk g := by
  have hnone : HoldsNone (fun g => g ∉ l) t := fun g hg => by rw [(h.stopped g (not_not.mp hg)).1]; rfl
  have hwaits : WaitsNone (fun g => g ∉ l) t := fun g hg => by rw [(h.stopped g (not_not.mp hg)).1]; nofun
  obtain ⟨s2, h2, hpath, hsound⟩ := (run_replanPass (w := .orders) t hnone).completes h.sound
  obtain ⟨u, hu, hpath', _⟩ := (run_settle before s2 (hnone.along hpath) (hwaits.along hpath)).completes hsound
  exact ⟨s2, u, h2, hu, settled_of hsound hu, fun g hg => (hpath'.desk (not_not.mpr hg)).trans (hpath.desk (not_not.mpr hg))⟩

/-- Settles O43: the stops at a shed's deadline, and what follows them. -/
theorem shedDeadlineStops : Obligations.ShedDeadlineStops := by
  unfold Obligations.ShedDeadlineStops
  intro s p x hr hs hb hx h0
  obtain ⟨hmem, hsorted, hnodup⟩ := stopOrder_spec s p
  obtain ⟨k, s1, hk, hpending, htaken, hprefix, hend⟩ := stopsWhilePending_of_sound p (s.stopOrder p) hs hb
  obtain ⟨t, ht, hstops⟩ := stops_of_sound (cause := .shed) nofun ((s.stopOrder p).take k) (hnodup.sublist (List.take_sublist _ _)) hs hb
  cases Flow.ok.inj (ht.symm.trans htaken)
  have hnone : (s1.account p).shed = none := by
    refine hend.elim id fun hall => (shed_none_of_idle hstops.budget fun g hp => ?_).2
    rw [hall, List.take_length] at hstops
    have hphase : s1.genPhase g = s.genPhase g := by simp only [State.genPhase, hstops.phase]
    by_cases hg : g ∈ s.stopOrder p
    · rw [charge_eq, (hstops.stopped g hg).1]
      rfl
    · rw [charge_eq, (hstops.others g hg).1, ← charge_eq]
      by_contra hne
      exact hg ((hmem g).mpr ⟨hphase ▸ hp, hne⟩)
  obtain ⟨s2, u, h2, hu, hsettled, hdesk⟩ := replan_settles_stopped s hstops
  refine ⟨s.stopOrder p, k, s1, s2, u, ?_, hmem, hsorted, htaken, hprefix, hnone, ((hstops.budget.2 p).2.2.2.1 hnone).symm, h2, hsettled,
    fun g hg => ?_⟩
  · rw [exec_expiry (c := .shedDeadlineExpiry p) rfl rfl, expire_due hr (by simp [State.untilDeadline, hx, h0]), deadlineExpires, hpending,
      Flow.ok_andThen, h2, Flow.ok_andThen, hu]
    rfl
  · rw [hdesk g hg, (hstops.stopped g hg).1]
    exact ⟨rfl, rfl⟩

/-! ## STOP ALL (R94) -/

theorem serve_stopAll {s : State} (hs : s.safe = false) (l : Link) : serve .stopAll l [] s = ((stopAll s).state, .done []) := by
  simp [serve, serveStopAll, hs]

theorem inService_eq (s : State) : s.inService = allGens.filter fun g => (s.desk g).state.inService :=
  List.filter_congr fun g _ => by cases (s.desk g).state <;> rfl

theorem isOut_of_inService {q : GenState} (h : q.inService = true) : q.isOut = false := by
  cases q with
  | disabled => cases h
  | absent => cases h
  | _ => rfl

/-- STOP ALL's work, step by step. -/
theorem stopAll_eq (s : State) : stopAll s = (forEach holdPan (s.occupied allSlots) s).andThen fun x =>
    (forEach (fun g => stopGen g .stopAll) (allGens.filter fun g => (s.desk g).state.inService) x).andThen fun x =>
      (if (allGens.filter fun g => (s.desk g).state.inService) = [] then Flow.ok x else replanPass x).andThen (settle s) := by
  rw [stopAll, inService_eq]
  have hif : ∀ (l : List Gen) (x : State), doIf (!l.isEmpty) replanPass x = if l = [] then Flow.ok x else replanPass x := fun l x => by
    cases l <;> rfl
  simp only [hif]

/-- Where no pan is heating-eligible, no count stands at 0 for one; where no desk waits either, nothing settles. -/
theorem settle_cold {s : State} (before : State) (hcold : ∀ n, s.heating n = false) (hq : s.NoneWaits) : settle before s = .ok s := by
  have hdue : dueCompletions before s = .ok s := by
    refine forEach_eq_self (fun n => ?_) _
    split
    · rfl
    · rw [completeIfDue, if_neg (by simp [hcold]), Flow.ok_andThen, endBoostIfDue, if_neg (by simp [hcold])]
  rw [settle, hdue, Flow.ok_andThen, retestDesks_quiet s hq]

theorem fields_of_core {p q : Pan} (h : p.core = q.core) : p.state = q.state ∧ p.held = q.held ∧ p.level = q.level ∧
    p.footprint = q.footprint ∧ p.tag = q.tag := by
  have heq : ∀ {α : Type} (f : Pan → α), f p.core = f q.core := fun f => congrArg f h
  exact ⟨heq Pan.state, heq Pan.held, heq Pan.level, heq Pan.footprint, heq Pan.tag⟩

theorem undisturbed_withPans (s : State) (f : Slot → Pan) : Undisturbed s (s.withPans f) := by
  constructor <;> intros <;> simp

/-- STOP ALL with every code valid and the budget in order: nothing is left to settle after the stops. -/
theorem stopAll_of_sound {s : State} (hs : s.Sound) (hb : BudgetOk s) :
    let heldAll := s.withPans fun n => if (s.pan n).state ≠ .free then { s.pan n with held := true } else s.pan n
    let stops := allGens.filter fun g => (s.desk g).state.inService
    ∃ s1 s2, stopAll s = .ok s2 ∧ Stops .stopAll stops heldAll s1 ∧ forEach (fun g => stopGen g .stopAll) stops heldAll = .ok s1 ∧
      (stops ≠ [] → replanPass s1 = .ok s2) ∧ (stops = [] → s2 = s1) ∧ Settled s s2 s2 ∧ OrderWork heldAll s2 ∧ BudgetOk s2 ∧
      (∀ g, s2.desk g = s1.desk g) ∧ (∀ g, s2.alloc g = s1.alloc g) ∧ ∀ g, (s1.desk g).order = none := by
  intro heldAll stops
  have hdesks : ∀ g, heldAll.desk g = s.desk g := desk_withPans s _
  have hhold : forEach holdPan (s.occupied allSlots) s = .ok heldAll := by
    refine (forEach_editPan_of_sound (f := fun _ p => { p with held := true }) (fun _ _ h => h) _ (nodup_allSlots.filter _) hs).trans ?_
    simp only [List.mem_filter, mem_allSlots, true_and, decide_eq_true_eq]
    rfl
  have hheld : heldAll.Sound := sound_withPans hs fun n => by
    split
    · exact hs.pans n
    · exact hs.pans n
  have hbudget : BudgetOk heldAll := SameBooks.budget ⟨desks_withPans s _, accounts_withPans s _, phaseOf_withPans s _⟩ hb
  obtain ⟨s1, h1, hstops⟩ := stops_of_sound (cause := .stopAll) nofun stops (nodup_allGens.filter _) hheld hbudget
  have hmem : ∀ g, g ∈ stops ↔ (s.desk g).state.inService = true := fun g => by simp [stops, mem_allGens]
  have hout : ∀ g, g ∉ stops → s1.desk g = s.desk g ∧ (s.desk g).state.inService = false := fun g hg =>
    ⟨(hstops.others g hg).1.trans (hdesks g), by simpa only [hmem, Bool.not_eq_true] using hg⟩
  have hnone : ∀ g, (s1.desk g).order = none := fun g => by
    by_cases hg : g ∈ stops
    · rw [(hstops.stopped g hg).1]
      rfl
    · obtain ⟨hd, hs⟩ := hout g hg
      rw [hd]
      exact (hb.1 g).order_none hs
  have hquiet : s1.NoneWaits := fun g e => by
    by_cases hg : g ∈ stops
    · rw [(hstops.stopped g hg).1]
      nofun
    · obtain ⟨hd, hs⟩ := hout g hg
      rw [hd]
      intro hw
      rw [((hb.1 g).of_waiting hw).1] at hs
      cases hs
  have hframe1 : OrderWork heldAll s1 := hstops.frame fun g hg => by
    rw [hdesks]
    exact isOut_of_inService ((hmem g).mp hg)
  obtain ⟨s2, h2, hpath, hsound2⟩ : ∃ s2, (if stops = [] then Flow.ok s1 else replanPass s1) = .ok s2 ∧
      Path .orders (fun _ => False) s1 s2 ∧ s2.Sound := by
    split
    · exact ⟨s1, rfl, .refl s1, hstops.sound⟩
    · exact (run_replanPass s1 fun g _ => hnone g).completes hstops.sound
  have hdesk2 : ∀ g, s2.desk g = s1.desk g := fun g => hpath.desk id
  have hframe2 := hframe1.trans hpath.orderWork
  have hcold : ∀ n, s2.heating n = false := fun n => by
    rw [Bool.eq_false_iff, ne_eq, heating_iff]
    rintro ⟨hst, _, hh, _⟩
    obtain ⟨hstate, hheldn, _⟩ := fields_of_core (hframe2.pan n)
    rw [hheldn, pan_withPans] at hh
    rw [hstate, pan_withPans] at hst
    split at hh
    · cases hh
    · next hfree =>
      rw [if_neg hfree] at hst
      rw [hst] at hfree
      exact hfree nofun
  have hsettle : settle s s2 = .ok s2 := settle_cold s hcold fun g e => by
    rw [hdesk2]
    exact hquiet g e
  refine ⟨s1, s2, ?_, hstops, h1, fun hne => ?_, fun he => ?_, settled_of hsound2 hsettle, hframe2, ?_, hdesk2,
    fun g => hpath.alloc id, hnone⟩
  · rw [stopAll_eq, hhold, Flow.ok_andThen, h1, Flow.ok_andThen, h2, Flow.ok_andThen, hsettle]
  · rwa [if_neg hne] at h2
  · rw [if_pos he] at h2
    exact (Flow.ok.inj h2).symm
  · split at h2
    · exact Flow.ok.inj h2 ▸ hstops.budget
    · exact (replanPass_keeps s1 hstops.budget).1 s2 h2

/-- Settles O30: STOP ALL's answer, and what it leaves with every code valid and the budget in order. -/
theorem stopAllStops : Obligations.StopAllStops := by
  unfold Obligations.StopAllStops
  refine ⟨fun s hl hsafe => ?_, fun s hl hs hsafe hb => ?_⟩
  · have hserve := serve_stopAll hsafe .pl
    rw [stopAll_eq] at hserve
    have hrun := serves_stopAll s
    rw [stopAll_eq] at hrun
    exact ⟨exec_answered (k := .stopAll) hl rfl rfl (fun _ => rfl) hserve, hrun.safe.1⟩
  · obtain ⟨s1, s2, hwork, hstops, h1, hreplan, hidle, hsettled, hframe, hbudget, hdesk, halloc, hnone⟩ := stopAll_of_sound hs hb
    have hserve := serve_stopAll hsafe .pl
    rw [hwork] at hserve
    obtain ⟨t, ht, ha⟩ := exec_answered (k := .stopAll) hl rfl rfl (fun _ => rfl) hserve
    have hpan : ∀ n, (s2.pan n).core = (if (s.pan n).state ≠ .free then { s.pan n with held := true } else s.pan n : Pan).core :=
      fun n => (hframe.pan n).trans (by rw [pan_withPans])
    have hmem : ∀ g, g ∈ (allGens.filter fun g => (s.desk g).state.inService) ↔ (s.desk g).state.inService = true := fun g => by
      simp [mem_allGens]
    refine ⟨s1, s2, s2, t, ht, ha, hsettled.sound, (undisturbed_withPans s _).trans hframe.toUndisturbed, ?_, hreplan, hidle, hsettled,
      fun n hn => ?_, fun n hn => ?_, fun n => ?_, ?_, fun g hg => ?_, fun g hg => ?_, fun p => ?_⟩
    · rw [← forEach_eq_foldl, Flow.ok_andThen, ← h1, withPans_eq]
    · rw [(fields_of_core (hpan n)).2.1, if_pos hn]
    · rw [(fields_of_core (hpan n)).2.1, if_neg (not_not.mpr hn)]
    · obtain ⟨_, _, hlevel, hfootprint, _⟩ := fields_of_core (hpan n)
      rw [hlevel, hfootprint]
      split
      · exact ⟨rfl, rfl⟩
      · exact ⟨rfl, rfl⟩
    · rw [hframe.priority, priority_withPans]
    · obtain ⟨hd, ha⟩ := hstops.stopped g ((hmem g).mpr hg)
      rw [hdesk, halloc, hd, ha, desk_withPans, alloc_withPans]
      exact ⟨rfl, rfl⟩
    · obtain ⟨hd, ha⟩ := hstops.others g fun h => by rw [(hmem g).mp h] at hg; cases hg
      rw [hdesk, halloc, hd, ha, desk_withPans, alloc_withPans]
      exact ⟨rfl, rfl⟩
    · exact shed_none_of_idle hbudget fun g _ => by rw [charge_eq, hdesk, hnone]; rfl

end Sys2Proof.Machine

/-! PROOFS. Work that keeps the Pan Tracker's lists and the FREE slots in order, slot by slot (R40, R42, R43). -/

namespace Sys2Proof.Machine

/-! ## Records and lists kept in order -/

/-- A FREE record holds the values of a FREE slot. -/
def Pan.Vacant (p : Pan) : Prop := p.state = .free → p = { Pan.freed p.tag with codeOk := p.codeOk }

/-- A record for another of the same pan, FREE as the other is. -/
structure Pan.Kept (p q : Pan) : Prop where
  tag : q.tag = p.tag
  free : q.state = .free ↔ p.state = .free
  vacant : p.Vacant → q.Vacant

/-- Every slot keeps its pan, and the lists stay in order. -/
structure Tidy (s t : State) : Prop where
  pan : ∀ n, (s.pan n).Kept (t.pan n)
  lists : ListsOk s → ListsOk t

theorem Pan.Kept.refl (p : Pan) : p.Kept p := ⟨rfl, .rfl, id⟩

theorem Pan.Kept.trans {p q r : Pan} (h : p.Kept q) (k : q.Kept r) : p.Kept r :=
  ⟨k.tag.trans h.tag, k.free.trans h.free, k.vacant ∘ h.vacant⟩

/-- The code is no part of it. -/
theorem Pan.Kept.code {p q : Pan} (h : p.Kept q) (b : Bool) : p.Kept { q with codeOk := b } :=
  ⟨h.tag, h.free, fun hp hfree => congrArg (fun r : Pan => { r with codeOk := b }) (h.vacant hp hfree)⟩

/-- A record of a pan on the hob for another. -/
theorem Pan.Kept.of_taken {p q : Pan} (hp : p.state ≠ .free) (hq : q.state ≠ .free) (ht : q.tag = p.tag) : p.Kept q :=
  ⟨ht, iff_of_false hq hp, fun _ h => absurd h hq⟩

theorem listsOk_of_pans {s t : State} (hp : ∀ n, (s.pan n).Kept (t.pan n)) (hc : t.candidates = s.candidates)
    (hl : t.priority = s.priority) (h : ListsOk s) : ListsOk t := by
  obtain ⟨hroom, hnodup, hmem, hfree⟩ := h
  refine ⟨hc ▸ hroom, hl ▸ hnodup, fun n => ?_, fun n => (hp n).vacant (hfree n)⟩
  rw [hl, hmem, ne_eq, ne_eq, (hp n).free]

theorem Tidy.of_pans {s t : State} (hp : ∀ n, (s.pan n).Kept (t.pan n)) (hc : t.candidates = s.candidates)
    (hl : t.priority = s.priority) : Tidy s t := ⟨hp, listsOk_of_pans hp hc hl⟩

theorem Tidy.of_same {s t : State} (hp : t.pans = s.pans) (hc : t.candidates = s.candidates) (hl : t.priority = s.priority) :
    Tidy s t :=
  .of_pans (fun n => by rw [show t.pan n = s.pan n by simp only [State.pan, hp]]; exact .refl _) hc hl

theorem tidy_writePan {s : State} {n : Slot} {p : Pan} (h : (s.pan n).Kept p) : Tidy s (s.writePan n p) := by
  refine .of_pans (fun m => ?_) rfl rfl
  rw [State.pan_writePan]
  split
  · next hm => exact hm ▸ h.code _
  · exact .refl _

theorem tidy_frame : CoilFrame Tidy where
  refl _ := ⟨fun _ => .refl _, id⟩
  trans h k := ⟨fun n => (h.pan n).trans (k.pan n), k.lists ∘ h.lists⟩
  coil _ _ _ := .of_same rfl rfl rfl

theorem tidy_postEvent (s : State) (e : Event) : Tidy s (s.postEvent e) :=
  .of_same (State.pans_postEvent _ _) (State.candidates_postEvent _ _) (State.priority_postEvent _ _)

theorem Tidy.taken {s t : State} (h : Tidy s t) {n : Slot} (hn : (s.pan n).state ≠ .free) : (t.pan n).state ≠ .free :=
  fun hf => hn ((h.pan n).free.mp hf)

/-! ## Work in turn -/

section
variable {R : State → State → Prop} (h : Frame R)
include h

theorem Frame.bind {s : State} {f : Flow} {k : Op} (hf : Leads R s f) (hk : ∀ t, R s t → Leads R t (k t)) :
    Leads R s (f.andThen k) := by
  obtain ⟨t, ht, rfl | ⟨b, rfl⟩⟩ := hf
  · exact h.after ht (hk t ht)
  · exact ⟨t, ht, .inr ⟨b, rfl⟩⟩

/-- Work on the members of a list, each done in a state that the work before leads to. -/
theorem Frame.forEach_of {α : Type} {work : α → Op} : ∀ (l : List α) (s : State),
    (∀ x ∈ l, ∀ t, R s t → Leads R t (work x t)) → Leads R s (Machine.forEach work l s)
  | [], s, _ => h.here s
  | x :: xs, s, hwork => h.bind (hwork x List.mem_cons_self s (h.refl s)) fun t ht =>
      Frame.forEach_of xs t fun y hy u hu => hwork y (List.mem_cons_of_mem _ hy) u (h.trans ht hu)

theorem Frame.foldl {α : Type} {f : State → α → State} (hf : ∀ s x, R s (f s x)) : ∀ (l : List α) (s : State), R s (l.foldl f s)
  | [], s => h.refl s
  | x :: xs, s => h.trans (hf s x) (Frame.foldl hf xs (f s x))

theorem Frame.checked {n : Slot} {s : State} {k : Op} (hk : Leads R s (k s)) : Leads R s ((Machine.checkPan n s).andThen k) := by
  unfold Machine.checkPan
  split
  · exact hk
  · exact h.bad _ s

end

theorem tidy_editPan {n : Slot} {f : Pan → Pan} {s : State} (h : (s.pan n).Kept (f (s.pan n))) : Leads Tidy s (editPan n f s) :=
  tidy_frame.checked (k := fun s => if f (s.pan n) = s.pan n then .ok s else .ok (s.writePan n (f (s.pan n)))) (by
    split
    · exact tidy_frame.here s
    · exact .ok (tidy_writePan h))

theorem tidy_rewritePan {n : Slot} {f : Pan → Pan} {s : State} (h : (s.pan n).Kept (f (s.pan n))) :
    Leads Tidy s (rewritePan n f s) := tidy_frame.checked (.ok (tidy_writePan h))

/-- An edit of a slot in use. -/
theorem tidy_editTaken {n : Slot} {f : Pan → Pan} {s : State} (hn : (s.pan n).state ≠ .free)
    (hf : ∀ p : Pan, p.state ≠ .free → (f p).state ≠ .free) (ht : ∀ p : Pan, (f p).tag = p.tag) : Leads Tidy s (editPan n f s) :=
  tidy_editPan (.of_taken hn (hf _ hn) (ht _))

theorem taken_of_heating {s : State} {n : Slot} (h : s.heating n = true) : (s.pan n).state ≠ .free := by
  rw [((heating_iff s n).mp h).1]
  nofun

/-! ## Releases and builds -/

theorem tidy_releaseOrder (g : Gen) (d : Bool) (s : State) : Leads Tidy s (releaseOrder g d s) := by
  refine tidy_frame.andThen (tidy_frame.checkOrder g s) fun t => tidy_frame.andThen ?_ (tidy_frame.releaseCoils g d)
  unfold Machine.countEnergy
  split
  · refine tidy_frame.forEach (fun l u => ?_) _ t
    split
    · next h => exact tidy_rewritePan (.of_taken h.1 h.1 rfl)
    · exact tidy_frame.here u
  · exact tidy_frame.here t

theorem withBit_zero (g : Gen) : withBit 0 g false = 0 := by simp [withBit]

/-- What a build writes into a pan record (R127, R128, R132): a FREE slot is neither a candidate nor chosen. -/
theorem kept_builtPan {g : Gen} {cands chosen : List Slot} {fits : List Fit} {n : Slot} {p : Pan}
    (h : n ∈ cands ∨ n ∈ chosen → p.state ≠ .free) : p.Kept (builtPan g cands chosen fits n p) := by
  unfold builtPan
  split
  · next hn => exact .of_taken (h (.inr hn)) (h (.inr hn)) rfl
  · split
    · next hn => exact .of_taken (h (.inl hn)) (h (.inl hn)) rfl
    · refine ⟨rfl, .rfl, fun hp hf => ?_⟩
      have hvacant := hp hf
      have hshort : withBit p.short g false = p.short := by rw [show p.short = 0 from congrArg Pan.short hvacant, withBit_zero]
      have hunserved : withBit p.unserved g false = p.unserved := by
        rw [show p.unserved = 0 from congrArg Pan.unserved hvacant, withBit_zero]
      rw [hshort, hunserved]
      exact hvacant

theorem mem_of_choose {s : State} {cands : List Slot} {n : Slot} (h : n ∈ s.choose cands) : n ∈ cands := by
  unfold State.choose at h
  split at h
  · cases h
  · next a ha =>
    split at h
    · exact List.mem_singleton.mp h ▸ bestBy_mem ha
    · next b hb =>
      rcases List.mem_cons.mp h with rfl | h
      · exact bestBy_mem ha
      · exact List.mem_singleton.mp h ▸ List.mem_of_mem_filter (bestBy_mem hb)

theorem taken_of_candidate {s : State} {g : Gen} {n : Slot} (h : n ∈ s.candidatesFor g) : (s.pan n).state ≠ .free :=
  taken_of_heating (Bool.and_eq_true _ _ ▸ (List.mem_filter.mp h).2 : s.heating n = true ∧ _).1

theorem tidy_postPowers (g : Gen) (before s : State) : Tidy s (postPowers g before s) :=
  tidy_frame.foldl (fun t n => by
    repeat' split
    · exact tidy_frame.refl t
    · exact tidy_postEvent t _
    · exact tidy_postEvent t _
    · exact tidy_frame.refl t) _ s

theorem tidy_writeOrder (s : State) (g : Gen) (legs : List Leg) : Tidy s (s.writeOrder g legs) := .of_same rfl rfl rfl

theorem tidy_buildOrder (g : Gen) (s : State) : Leads Tidy s (buildOrder g s) := by
  refine tidy_frame.andThen (tidy_frame.readForBuild s) fun s1 => tidy_frame.bind (tidy_frame.doIf _ tidy_frame.checkLevels s1) fun s2 h2 => ?_
  refine tidy_frame.andThen (tidy_frame.forEach_of _ _ fun n _ t ht => tidy_editPan (kept_builtPan fun hn => ?_)) fun t =>
    tidy_frame.andThen (tidy_frame.after (tidy_writeOrder t g _) (tidy_frame.takeCoils g _ _)) fun u => .ok (tidy_postPowers g s2 u)
  exact ht.taken (h2.taken (taken_of_candidate (hn.elim id mem_of_choose)))

/-! ## Desks and reports -/

theorem tidy_setDesk (s : State) (g : Gen) (d : Desk) : Tidy s (s.setDesk g d) := .of_same rfl rfl rfl

theorem tidy_dropOrder (s : State) (g : Gen) : Tidy s (s.dropOrder g) := .of_same rfl rfl rfl

theorem tidy_emptyMemory (s : State) (g : Gen) : Tidy s (s.emptyMemory g) := .of_same rfl rfl rfl

theorem tidy_dropOrderPosting (s : State) (g : Gen) : Tidy s (s.dropOrderPosting g) := by
  unfold State.dropOrderPosting
  split
  · exact tidy_frame.trans (tidy_dropOrder s g) (tidy_postEvent (s.dropOrder g) _)
  · exact tidy_dropOrder s g

theorem tidy_requestYield (s : State) (g : Gen) : Tidy s (s.requestYield g) := by
  unfold State.requestYield
  split
  · exact tidy_setDesk s g _
  · exact tidy_frame.refl s

theorem tidy_buildForWaiting (g : Gen) (entry : Byte) (s : State) : Leads Tidy s (buildForWaiting g entry s) :=
  tidy_frame.andThen (tidy_buildOrder g s) fun t => .ok (tidy_setDesk t g _)

theorem tidy_deliver (g : Gen) (s : State) : Leads Tidy s (deliver g s) :=
  tidy_frame.andThen (tidy_frame.checkOrder g s) fun t => .ok (tidy_setDesk t g _)

theorem tidy_rebuild (g : Gen) (s : State) : Leads Tidy s (rebuild g s) :=
  tidy_frame.andThen (tidy_frame.releaseCoils g false s) fun t => tidy_frame.after (tidy_dropOrderPosting t g) (by
    simp only
    split
    · exact .ok (tidy_setDesk _ g _)
    · exact tidy_buildForWaiting g _ _)

theorem tidy_reportDown (g : Gen) (s : State) : Leads Tidy s (reportDown g s) :=
  tidy_frame.andThen (tidy_frame.checkOrder g s) fun t => by
    split
    · exact tidy_frame.here t
    · split
      · exact .ok (tidy_requestYield t g)
      · exact tidy_rebuild g t

theorem tidy_reportAll (gs : List Gen) (s : State) : Leads Tidy s (reportAll gs s) := tidy_frame.forEach tidy_reportDown _ s

theorem tidy_retestDesk (g : Gen) (s : State) : Leads Tidy s (retestDesk g s) := by
  unfold retestDesk
  split
  · split
    · exact tidy_frame.here s
    · exact tidy_buildForWaiting g _ s
  · exact tidy_frame.here s

theorem tidy_retestDesks (s : State) : Leads Tidy s (retestDesks s) := tidy_frame.forEach tidy_retestDesk _ s

theorem tidy_finishStop (s : State) (g : Gen) (cause : StopCause) : Tidy s (s.finishStop g cause) := by
  have hdrop : Tidy s (if (s.desk g).order.isSome then s.dropOrder g else s) := by
    split
    · exact tidy_dropOrder s g
    · exact tidy_frame.refl s
  unfold State.finishStop
  simp only
  generalize (if (s.desk g).order.isSome then s.dropOrder g else s) = t at hdrop
  have hstopped : ∀ d, Tidy s (((t.emptyMemory g).setDesk g d).postStopped g cause) := fun d =>
    tidy_frame.trans hdrop (tidy_frame.trans (tidy_emptyMemory t g) (tidy_frame.trans (tidy_setDesk _ g d) (tidy_postEvent _ _)))
  split
  · exact tidy_frame.trans (hstopped _) (tidy_postEvent _ _)
  · exact hstopped _

theorem tidy_stopGen (g : Gen) (cause : StopCause) (s : State) : Leads Tidy s (stopGen g cause s) :=
  tidy_frame.after (tidy_setDesk s g _) (tidy_frame.andThen (tidy_releaseOrder g _ _) fun t => .ok (tidy_finishStop t g cause))

/-! ## Plans, timers and boosts -/

theorem tidy_planPan (n : Slot) (s : State) : Leads Tidy s (planPan n s) := by
  unfold planPan
  split
  · next h => exact tidy_editTaken (by rw [h.1]; nofun) (fun _ => id) fun _ => rfl
  · exact tidy_frame.here s

theorem tidy_replanFrom : ∀ (l : List Slot) (noted : List Gen) (s : State), Leads Tidy s (replanFrom l noted s)
  | [], noted, s => tidy_reportAll noted s
  | n :: rest, _, s => tidy_frame.andThen (tidy_planPan n s) fun t =>
      tidy_frame.andThen (tidy_frame.movePan n t) (tidy_replanFrom rest _)

theorem tidy_replanPass (s : State) : Leads Tidy s (replanPass s) := tidy_replanFrom _ _ s

theorem tidy_reportsPan {n : Slot} {f : Pan → Pan} {s : State} (hf : Leads Tidy s (editPan n f s)) (e : State → Event)
    (gs : State → List Gen) : Leads Tidy s ((editPan n f s).andThen fun t => reportAll (gs t) (t.postEvent (e t))) :=
  tidy_frame.andThen hf fun t => tidy_frame.after (tidy_postEvent t _) (tidy_reportAll _ _)

theorem timerDone_taken (p : Pan) : p.timerDone.state = p.state ∧ p.timerDone.tag = p.tag := by
  unfold Pan.timerDone
  split
  · exact ⟨rfl, rfl⟩
  · exact ⟨rfl, rfl⟩

theorem tidy_completeIfDue (n : Slot) (s : State) : Leads Tidy s (completeIfDue n s) := by
  unfold completeIfDue
  split
  · next h =>
    rw [completeTimer_eq]
    exact tidy_reportsPan (tidy_editTaken (taken_of_heating h.1) (fun p hp => (timerDone_taken p).1 ▸ hp) fun p => (timerDone_taken p).2) _ _
  · exact tidy_frame.here s

theorem tidy_endBoost {n : Slot} {s : State} (h : s.heating n = true) : Leads Tidy s (endBoost n s) := by
  rw [endBoost_eq]
  exact tidy_reportsPan (tidy_editTaken (f := Pan.boostDone) (taken_of_heating h) (fun _ => id) fun _ => rfl) _ _

theorem tidy_endBoostIfDue (n : Slot) (s : State) : Leads Tidy s (endBoostIfDue n s) := by
  unfold endBoostIfDue
  split
  · next h => exact tidy_endBoost h.1
  · exact tidy_frame.here s

theorem tidy_settle (before s : State) : Leads Tidy s (settle before s) :=
  tidy_frame.andThen (tidy_frame.forEach (fun n t => by
    split
    · exact tidy_frame.here t
    · exact tidy_frame.andThen (tidy_completeIfDue n t) (tidy_endBoostIfDue n)) _ s) tidy_retestDesks

end Sys2Proof.Machine

/-! PROOFS. SET LEVEL and SET TIMER (R88 to R91): what they write, what follows, and the answer where a check fails meanwhile. -/

namespace Sys2Proof.Machine

/-! ## SET LEVEL -/

theorem tidy_raise {s : State} {n : Slot} (hn : (s.pan n).state ≠ .free) : Tidy s (s.raise n) := by
  refine ⟨fun _ => .refl _, fun ⟨hroom, hnodup, hmem, hfree⟩ => ?_⟩
  have hperm : (n :: s.priority.erase n).Perm s.priority := (List.perm_cons_erase ((hmem n).mpr hn)).symm
  exact ⟨hroom, hperm.nodup_iff.mpr hnodup, fun m => hperm.mem_iff.trans (hmem m), hfree⟩

theorem tidy_setLevel {n : Slot} {level : Fin 14} {s : State} (hn : (s.pan n).state ≠ .free) : Leads Tidy s (setLevel n level s) := by
  refine tidy_frame.bind (tidy_editTaken (f := Pan.withLevel level (s.params.boostDuration * 1000)) hn (fun _ => id) fun _ => rfl)
    fun t ht => tidy_frame.andThen ?_ (tidy_settle s)
  split
  · exact .ok (tidy_raise (ht.taken hn))
  · split
    · exact tidy_reportAll _ t
    · exact tidy_frame.here t

theorem tidy_setPartSecond (s : State) (n : Slot) (ms : Nat) : Tidy s (s.setPartSecond n ms) := .of_same rfl rfl rfl

theorem tidy_setTimer {n : Slot} {value : Option Nat} {a h : Bool} {s : State} (hn : (s.pan n).state ≠ .free) :
    Leads Tidy s (setTimer n value a h s) :=
  tidy_frame.andThen (tidy_rewritePan (.of_taken hn hn rfl)) fun t =>
    tidy_frame.after (tidy_setPartSecond t n 0) (tidy_frame.andThen (tidy_completeIfDue n (t.setPartSecond n 0)) (tidy_settle s))

/-- Work on a slot in use that a failed check ends: the pan of the slot keeps its tag, and the answer shows a FREE slot. -/
theorem answer_of_safe {work : Op} {n : Slot} {s v : State} (hr : Serves s (work s)) (ht : Leads Tidy s (work s)) (hv : work s = .safe v) :
    v.safe = true ∧ v.pan n = Pan.freed (s.pan n).tag := by
  refine ⟨hr.safe.1 v hv, ?_⟩
  obtain ⟨t, h, hok | ⟨b, hsafe⟩⟩ := ht
  · exact nomatch hv.symm.trans hok
  · rw [Flow.safe.inj (hv.symm.trans hsafe), pan_enterSafe, (h.pan n).tag]

theorem slotFields_freed {s : State} {n : Slot} {tag : Tag} (h : s.pan n = Pan.freed tag) :
    s.slotFields n = [byteOf n.val, byteOf tag.val, 0, 0, 0xFF, 0xFF, 0xFF, 0xFF] := by
  simp [State.slotFields, h, Pan.freed, LevelSource.code, timerCode, boostCode, wordOf, byteOf]

/-- A request on a slot in use, answered with what its work leaves, whether or not a check ends it. -/
theorem answered_slot {k : ReqKind} {c : Instr} {body : List Byte} {work : Op} {s : State} {n : Slot} (hc : requestCommand k .pl body = c)
    (hl : s.Listens .pl) (hb : bodyFits body = true) (hk : kindAllowed k .pl = true) (hbody : bodyless k = true → body = [])
    (hn : (s.pan n).state ≠ .free) (hserve : serve k .pl body s = serveSlot n (s.pan n).tag work s)
    (hr : Serves s (work s)) (ht : Leads Tidy s (work s)) :
    ∃ t, exec c s = .next t ∧ (∀ u, work s = .ok u → Answered .pl 0x81 (u.slotFields n) u t ∧ (u.pan n).tag = (s.pan n).tag) ∧
      ∀ v, work s = .safe v → v.safe = true ∧ v.pan n = Pan.freed (s.pan n).tag ∧
        Answered .pl 0x81 [byteOf n.val, byteOf (s.pan n).tag.val, 0, 0, 0xFF, 0xFF, 0xFF, 0xFF] v t := by
  rw [serveSlot_taken hn] at hserve
  obtain ⟨t, he, ha⟩ := exec_answered hl hb hk hbody hserve
  refine ⟨t, hc ▸ he, fun u hu => ?_, fun v hv => ?_⟩
  · rw [hu] at ha
    refine ⟨ha, ?_⟩
    obtain ⟨w, h, hok | ⟨b, hsafe⟩⟩ := ht
    · rw [Flow.ok.inj (hu.symm.trans hok), (h.pan n).tag]
    · exact nomatch hu.symm.trans hsafe
  · obtain ⟨hsafe, hpan⟩ := answer_of_safe (n := n) hr ht hv
    rw [hv, Flow.state] at ha
    exact ⟨hsafe, hpan, slotFields_freed hpan ▸ ha⟩

/-! ## With every code valid -/

/-- SET LEVEL with every code valid (R89): a raise, a write or a report, then what settles. -/
theorem setLevel_of_sound {s : State} (hs : s.Sound) (n : Slot) (level : Fin 14) :
    let written : State := s.setPan n { s.pan n with
      level := level, source := .panel, boost := if level = 13 then some (s.params.boostDuration * 1000) else none }
    ∃ s1 u, setLevel n level s = .ok u ∧
      ((s.pan n).level < level → s1 = { written with priority := n :: s.priority.erase n }) ∧
      ((s.pan n).level = level → s1 = written) ∧
      (level < (s.pan n).level → Reported (s.legHolders (s.panId n)) written s1) ∧ Settled s s1 u := by
  intro written
  have hwritten : written.Sound := hs.setPan n (hs.pans n)
  have hwork : setLevel n level s = (if (s.pan n).level < level then .ok (written.raise n)
      else if level < (s.pan n).level then reportAll (s.legHolders (s.panId n)) written else .ok written : Flow).andThen (settle s) := by
    rw [setLevel, editPan_of_sound hs n (hs.pans n), Flow.ok_andThen, legHolders_setPan,
      panId_setPan (p := (s.pan n).withLevel level (s.params.boostDuration * 1000)) rfl]
    rfl
  rcases lt_trichotomy (s.pan n).level level with hlt | heq | hgt
  · rw [if_pos hlt, Flow.ok_andThen] at hwork
    obtain ⟨u, hu⟩ := settled_sound s (s := written.raise n) ⟨hwritten.coils, hwritten.pans, hwritten.orders, hwritten.levels, hwritten.marks⟩
    exact ⟨_, u, hwork.trans hu.work, fun _ => rfl, fun h => absurd h hlt.ne, fun h => absurd h hlt.asymm, hu⟩
  · rw [if_neg (heq ▸ lt_irrefl _), if_neg (heq ▸ lt_irrefl _), Flow.ok_andThen] at hwork
    obtain ⟨u, hu⟩ := settled_sound s hwritten
    exact ⟨_, u, hwork.trans hu.work, fun h => absurd heq h.ne, fun _ => rfl, fun h => absurd heq h.ne', hu⟩
  · obtain ⟨s1, h1⟩ := Run.reported (gs := s.legHolders (s.panId n)) hwritten
    obtain ⟨u, hu⟩ := settled_sound s h1.sound
    rw [if_neg hgt.asymm, if_pos hgt, h1.work, Flow.ok_andThen] at hwork
    exact ⟨s1, u, hwork.trans hu.work, fun h => absurd h hgt.asymm, fun h => absurd h hgt.ne', fun _ => h1, hu⟩

/-- SET TIMER with every code valid (R91): the record and the part-second, a completion where the timer stands at 0, then
what settles. -/
theorem setTimer_of_sound {s : State} (hs : s.Sound) (n : Slot) (value : Option Nat) (a h : Bool) :
    let p : Pan := { s.pan n with timer := value, autoHold := a, holdOnLift := h }
    let written : State := (s.setPan n p).setPartSecond n 0
    let completed : State := (written.setPan n p.timerDone).postEvent
      ⟨.timerDone, s.now % 65536, some ⟨n, some (s.pan n).tag⟩, none, none, none⟩
    ∃ s1 u, setTimer n value a h s = .ok u ∧ (¬ (s.heating n = true ∧ value = some 0) → s1 = written) ∧
      (s.heating n = true → value = some 0 → Reported (s.legHolders (s.panId n)) completed s1) ∧ Settled s s1 u := by
  intro p written completed
  have hwritten : written.Sound := sound_setPartSecond (hs.setPan n (p := p) (hs.pans n)) n 0
  have hpan : written.pan n = p := s.pan_setPan_self n p
  have hheating : written.heating n = s.heating n := heating_congr (by rw [hpan]) (by rw [hpan]) (by rw [hpan]) (by rw [hpan]) rfl rfl
  have hwork : setTimer n value a h s = (completeIfDue n written).andThen (settle s) := by
    rw [setTimer, rewritePan_of_sound hs n (hs.pans n), Flow.ok_andThen]
  by_cases hdue : s.heating n = true ∧ value = some 0
  · obtain ⟨s1, u, h1, hreported, hu, hsettled⟩ := completes_settle hwritten n s
    rw [completeIfDue_due (hheating.trans hdue.1) (by rw [hpan]; exact hdue.2), h1, Flow.ok_andThen] at hwork
    rw [hpan] at hreported
    have hholders : written.legHolders (written.panId n) = s.legHolders (s.panId n) := by
      rw [legHolders_setPartSecond, legHolders_setPan]
      exact congrArg s.legHolders (panId_setPan (p := p) rfl)
    exact ⟨s1, u, hwork.trans hu, fun hn => absurd hdue hn, fun _ _ => hholders ▸ hreported, hsettled⟩
  · obtain ⟨u, hu⟩ := settled_sound s hwritten
    rw [completeIfDue, if_neg (by rw [hheating, hpan]; exact hdue), Flow.ok_andThen] at hwork
    exact ⟨written, u, hwork.trans hu.work, fun _ => rfl, fun hh hv => absurd ⟨hh, hv⟩ hdue, hu⟩

/-- Settles O28: SET LEVEL and SET TIMER on a slot in use, with every code valid and where a check fails meanwhile. -/
theorem setLevelAndSetTimerTake : Obligations.SetLevelAndSetTimerTake := by
  unfold Obligations.SetLevelAndSetTimerTake
  have level : ∀ {s : State} {n : Slot} (x : Fin 14), s.Listens .pl → s.safe = false → (s.pan n).state ≠ .free → _ :=
    fun {s n} x hl hsafe hn => answered_slot (k := .setLevel) (c := .setLevel .pl _) rfl hl rfl rfl nofun hn
      (serve_setLevel_slot hsafe n (s.pan n).tag x .pl) (serves_setLevel n x s) (tidy_setLevel hn)
  have timer : ∀ {s : State} {n : Slot} (lo hi x : Byte), s.Listens .pl → s.safe = false → (s.pan n).state ≠ .free → _ :=
    fun {s n} lo hi x hl hsafe hn => answered_slot (k := .setTimer) (c := .setTimer .pl _) rfl hl rfl rfl nofun hn
      (serve_setTimer_slot hsafe n (s.pan n).tag lo hi x .pl) (serves_setTimer n _ _ _ s) (tidy_setTimer hn)
  refine ⟨fun s n x hl hs hsafe hn => ?_, fun s n lo hi x hl hs hsafe hn => ?_, fun s n hl hsafe hn => ⟨fun x => ?_, fun lo hi x => ?_⟩⟩
  · obtain ⟨s1, u, hwork, hraised, hsame, hlowered, hsettled⟩ := setLevel_of_sound hs n x
    obtain ⟨t, ht, ha, _⟩ := level x hl hsafe hn
    exact ⟨s1, u, t, ht, hraised, hsame, hlowered, hsettled, (ha u hwork).1⟩
  · obtain ⟨s1, u, hwork, hwritten, hcompleted, hsettled⟩ := setTimer_of_sound hs n (timerFrom lo hi) (x.getLsbD 0) (x.getLsbD 1)
    obtain ⟨t, ht, ha, _⟩ := timer lo hi x hl hsafe hn
    exact ⟨s1, u, t, ht, hwritten, hcompleted, hsettled, (ha u hwork).1⟩
  · obtain ⟨t, ht, ha, hbad⟩ := level x hl hsafe hn
    refine ⟨t, ht, fun u hu => ?_, hbad⟩
    obtain ⟨hanswered, htag⟩ := ha u hu
    rwa [State.slotFields, htag] at hanswered
  · obtain ⟨t, ht, ha, hbad⟩ := timer lo hi x hl hsafe hn
    refine ⟨t, ht, fun u hu => ?_, hbad⟩
    obtain ⟨hanswered, htag⟩ := ha u hu
    rwa [State.slotFields, htag] at hanswered

end Sys2Proof.Machine

/-! PROOFS. Every configured value stays in its range (R90, R188), and the lists of the Pan Tracker stay in order (R40, R42, R43). -/

namespace Sys2Proof.Machine

/-! ## The configuration -/

/-- Every configured value is in its range. -/
def ConfigOk (s : State) : Prop := ParamsOk s.params ∧ LevelsOk s.levels

theorem ConfigOk.congr {s t : State} (h : ConfigOk s) (hp : t.params = s.params) (hw : t.levels.watts = s.levels.watts) : ConfigOk t := by
  have hentry : t.levels.entry = s.levels.entry := funext fun n => by simp only [LevelTable.entry, hw]
  refine ⟨hp ▸ h.1, ?_⟩
  unfold LevelsOk
  rw [hentry]
  exact h.2

theorem entry_set (w : Vector Nat 13) (n : Fin 13) (v : Nat) (m : Fin 13) :
    (⟨w.set n v, true⟩ : LevelTable).entry m = if m = n then v else (⟨w, true⟩ : LevelTable).entry m := by
  simp only [LevelTable.entry, Fin.getElem_fin, Vector.getElem_set, Fin.ext_iff, eq_comm]

/-- An entry that fits between its neighbours leaves the table in order (R90). -/
theorem levelsOk_set {t : LevelTable} {n : Fin 13} {v : Nat} (ht : LevelsOk t) (h : t.admits n v = true) :
    LevelsOk ⟨t.watts.set n v, true⟩ := by
  obtain ⟨hrange, hbelow, habove⟩ := (t.admits_iff n v).mp h
  obtain ⟨hranges, hmono⟩ := ht
  have hentry : ∀ m, (⟨t.watts.set n v, true⟩ : LevelTable).entry m = if m = n then v else t.entry m := entry_set t.watts n v
  refine ⟨fun m => ?_, fun i j hij => ?_⟩
  · rw [hentry]
    split
    · exact hrange
    · exact hranges m
  · rw [hentry, hentry]
    split
    · next hi =>
      split
      · exact le_refl v
      · next hj =>
        have hlt : i.val < j.val := lt_of_le_of_ne hij fun h => hj (Fin.ext (h ▸ congrArg Fin.val hi))
        exact (habove ⟨n.val + 1, by omega⟩ rfl).trans (hmono _ _ (show n.val + 1 ≤ j.val by omega))
    · next hi =>
      split
      · next hj =>
        have hlt : i.val < j.val := lt_of_le_of_ne hij fun h => hi (Fin.ext (h.trans (congrArg Fin.val hj)))
        exact (hmono _ _ (show i.val ≤ n.val - 1 by omega)).trans (hbelow ⟨n.val - 1, by omega⟩ (show n.val - 1 + 1 = n.val by omega))
      · exact hmono i j hij

theorem configOk_setParam {s : State} {v : Nat} {p : Param} (h : ConfigOk s) (hv : s.paramFits v p = true) :
    ConfigOk (s.setParam v p) := by
  obtain ⟨⟨hlost, hlease, hyield, hcollection, hrepeat, hconfirm, hboost, hshed⟩, hlevels⟩ := h
  cases p
  case level n => exact ⟨⟨hlost, hlease, hyield, hcollection, hrepeat, hconfirm, hboost, hshed⟩, levelsOk_set hlevels hv⟩
  case phase g => exact ⟨⟨hlost, hlease, hyield, hcollection, hrepeat, hconfirm, hboost, hshed⟩, hlevels⟩
  case lostTime => exact ⟨⟨of_decide_eq_true hv, hlease, hyield, hcollection, hrepeat, hconfirm, hboost, hshed⟩, hlevels⟩
  case orderLease => exact ⟨⟨hlost, of_decide_eq_true hv, hyield, hcollection, hrepeat, hconfirm, hboost, hshed⟩, hlevels⟩
  case yieldTimeout => exact ⟨⟨hlost, hlease, of_decide_eq_true hv, hcollection, hrepeat, hconfirm, hboost, hshed⟩, hlevels⟩
  case collectionTime => exact ⟨⟨hlost, hlease, hyield, of_decide_eq_true hv, hrepeat, hconfirm, hboost, hshed⟩, hlevels⟩
  case repeatLimit => exact ⟨⟨hlost, hlease, hyield, hcollection, of_decide_eq_true hv, hconfirm, hboost, hshed⟩, hlevels⟩
  case confirmCount => exact ⟨⟨hlost, hlease, hyield, hcollection, hrepeat, of_decide_eq_true hv, hboost, hshed⟩, hlevels⟩
  case boostDuration => exact ⟨⟨hlost, hlease, hyield, hcollection, hrepeat, hconfirm, of_decide_eq_true hv, hshed⟩, hlevels⟩
  case shedDeadline => exact ⟨⟨hlost, hlease, hyield, hcollection, hrepeat, hconfirm, hboost, of_decide_eq_true hv⟩, hlevels⟩

theorem configOk_run {s : State} {f : Flow} (h : Serves s f) (hs : ConfigOk s) : ConfigOk f.state := by
  obtain ⟨t, ht, rfl | ⟨b, _, rfl⟩⟩ := h
  · exact hs.congr ht.unmoved.params ht.unmoved.watts
  · obtain ⟨_, _, _, hlevels, _⟩ := lists_enterSafe b t
    refine (hs.congr ht.unmoved.params ht.unmoved.watts).congr (enterSafe_frame b t).params ?_
    rw [Flow.state, hlevels]

theorem configOk_restart {s : State} (h : ConfigOk s) : ConfigOk (restart s) := by
  have hgens := restartGens_keeps (P := ConfigOk) (fun _ _ => configOk_run) (s := s.unchecked) h
  unfold restart
  generalize allGens.foldl restartGen s.unchecked = t at hgens
  exact hgens

theorem configOk_rules : RunRules ConfigOk ConfigOk where
  run _ _ := configOk_run
  done _ h := h
  ports _ _ h := h
  portsAfter _ _ h := h
  reset s straps _ _ := ⟨paramsOk_initial, levelsOk_powerOn straps s.pending s.freeCount⟩
  tick _ h := h
  permit _ _ h := h
  window _ _ _ h := h
  account _ _ _ h := h
  drain _ _ h := h
  param _ _ _ hv h := configOk_setParam h hv
  arm _ x h := by cases x <;> exact h
  restart s h := configOk_restart h

end Sys2Proof.Machine

/-! PROOFS. Every step keeps the Pan Tracker's lists and the FREE slots in order (R40, R42, R43): the evaluation, the requests and
the expiries. -/

namespace Sys2Proof.Machine

/-! ## Lists in order -/

/-- With every slot FREE and empty lists. -/
theorem listsOk_of_freed {s : State} (hc : s.candidates = []) (hl : s.priority = []) (hp : ∀ n, ∃ tag, s.pan n = Pan.freed tag) :
    ListsOk s := by
  refine ⟨by simp [hc], by simp [hl], fun n => ?_, fun n _ => ?_⟩
  · obtain ⟨tag, h⟩ := hp n
    rw [hl, h]
    exact iff_of_false List.not_mem_nil fun h => h rfl
  · obtain ⟨tag, h⟩ := hp n
    rw [h]
    rfl

theorem listsOk_enterSafe (b : BadRecord) (s : State) : ListsOk (enterSafe b s) := by
  obtain ⟨hc, hl, _⟩ := lists_enterSafe b s
  exact listsOk_of_freed hc hl fun n => ⟨_, pan_enterSafe b s n⟩

theorem Leads.listsOk {s : State} {f : Flow} (h : Leads Tidy s f) (hs : ListsOk s) : ListsOk f.state := by
  obtain ⟨t, ht, rfl | ⟨b, rfl⟩⟩ := h
  · exact ht.lists hs
  · exact listsOk_enterSafe b t

/-- Tidy work keeps the lists in order. -/
theorem keeps_of_tidy {k : Op} (h : ∀ s, Leads Tidy s (k s)) : Keeps ListsOk k := fun s => (h s).listsOk

theorem Tidy.keeps {s t : State} (h : Tidy s t) (hs : ListsOk s) : ListsOk t := h.lists hs

/-- Records whose FREE values do not change. -/
theorem Pan.Kept.of_fixed {p q : Pan} (ht : q.tag = p.tag) (hst : q.state = p.state) (h : p.Vacant → p.state = .free → q = p) :
    p.Kept q :=
  ⟨ht, by rw [hst], fun hp hq => by
    have hfree := hst ▸ hq
    rw [h hp hfree]
    exact hp hfree⟩

/-! ## The evaluation -/

theorem present_of_pick {s : State} {comps : List Component} {p : Pick} (h : p ∈ s.picks comps) : (s.pan p.slot).state ≠ .free := by
  obtain ⟨n, _, hn⟩ := List.mem_filterMap.mp h
  split at hn
  · next hst =>
    obtain ⟨k, _, rfl⟩ := Option.map_eq_some_iff.mp hn
    rw [hst]
    nofun
  · cases hn

theorem tidy_stepSole {picks : List Pick} {s : State} (h : ∀ p ∈ picks, (s.pan p.slot).state ≠ .free) :
    Leads Tidy s (stepSole picks s) :=
  tidy_frame.forEach_of _ s fun p hp _ ht =>
    tidy_editTaken (f := Pan.placed p.component) (ht.taken (h p (List.mem_of_mem_filter hp))) (fun _ => id) fun _ => rfl

theorem tidy_stepShared {picks : List Pick} {s : State} (comps : List Component) (h : ∀ p ∈ picks, (s.pan p.slot).state ≠ .free) :
    Leads Tidy s (stepShared comps picks s) :=
  tidy_frame.forEach_of _ s fun _ _ t ht => tidy_frame.forEach_of _ t fun p hp _ hu =>
    tidy_editTaken (f := Pan.placed _) (hu.taken (ht.taken (h p (List.mem_of_mem_filter hp)))) (fun _ => id) fun _ => rfl

theorem tidy_stepLost (picks : List Pick) (s : State) : Leads Tidy s (stepLost picks s) :=
  tidy_frame.forEach (fun n t => by
    split
    · next h =>
      exact tidy_frame.andThen (tidy_editTaken (f := Pan.toLost t.params.lostTime) (by rw [h.1]; nofun) (fun _ _ => nofun) fun _ => rfl)
        fun u => .ok (tidy_postEvent u _)
    · exact tidy_frame.here t) _ s

theorem addCandidates_length : ∀ (l : List Component) (cs : List Candidate), cs.length ≤ Config.candidateRoom →
    (addCandidates l cs).length ≤ Config.candidateRoom
  | [], _, h => h
  | k :: rest, cs, h => by
    unfold addCandidates
    refine addCandidates_length rest _ ?_
    split
    · next hlt =>
      rw [List.length_append]
      exact hlt
    · exact h

theorem tidy_candidates {s : State} {cs : List Candidate}
    (h : s.candidates.length ≤ Config.candidateRoom → cs.length ≤ Config.candidateRoom) : Tidy s { s with candidates := cs } :=
  ⟨fun _ => .refl _, fun ⟨hroom, hrest⟩ => ⟨h hroom, hrest⟩⟩

theorem returning_lost {s : State} {k : Component} {n : Slot} (h : s.returning k = some n) : (s.pan n).state = .lost := by
  unfold State.returning at h
  split at h
  · exact (of_decide_eq_true (List.mem_filter.mp (bestBy_mem h)).2 : _ ∧ _).1
  · cases h

theorem tidy_stepReturn : ∀ (l left : List Component) (s : State), Leads Tidy s (stepReturn l left s)
  | [], left, s => .ok (tidy_candidates (addCandidates_length left s.candidates))
  | k :: rest, left, s => by
    unfold stepReturn
    split
    · next n hn =>
      exact tidy_frame.andThen
        (tidy_editTaken (f := Pan.returned k) (by rw [returning_lost hn]; nofun) (fun _ _ => nofun) fun _ => rfl)
        fun t => tidy_frame.after (tidy_postEvent t _) (tidy_stepReturn rest left _)
    · exact tidy_stepReturn rest _ s

theorem renewCandidates_length (k : Nat) (cs : List Candidate) (claims : List Claim) : (renewCandidates k cs claims).length ≤ cs.length :=
  (List.length_filterMap_le _ _).trans_eq List.length_zipIdx

theorem tidy_stepCandidates (unpicked : List Component) (s : State) : Leads Tidy s (stepCandidates unpicked s) :=
  tidy_frame.after (tidy_candidates fun h => (renewCandidates_length _ _ _).trans h) (tidy_stepReturn _ [] _)

/-- What an edit of a pan record leaves. -/
theorem editPan_leaves {n : Slot} {f : Pan → Pan} {s t : State} (h : editPan n f s = .ok t) :
    (∀ m, t.pan m = if m = n then { f (s.pan n) with codeOk := (t.pan n).codeOk } else s.pan m) ∧ t.candidates = s.candidates ∧
      t.priority = s.priority := by
  unfold editPan checkPan at h
  split at h
  · rw [Flow.ok_andThen] at h
    split at h <;> cases Flow.ok.inj h
    · next heq =>
      refine ⟨fun m => ?_, rfl, rfl⟩
      split
      · next hm => rw [heq, hm]
      · rfl
    · refine ⟨fun m => ?_, rfl, rfl⟩
      rw [State.pan_writePan, State.pan_writePan, if_pos rfl]
  · exact nomatch h

theorem listsOk_of_safe {n : Slot} {f : Pan → Pan} {s v : State} (h : editPan n f s = .safe v) : ListsOk v := by
  unfold editPan checkPan at h
  split at h
  · rw [Flow.ok_andThen] at h
    split at h <;> exact nomatch h
  · exact Flow.safe.inj h ▸ listsOk_enterSafe _ s

theorem tidy_postPan (s : State) (k : EventKind) (i : PanId) : Tidy s (s.postPan k i) := tidy_postEvent s _

theorem tidy_postWindow (s : State) (i : PanId) (w : WindowNo) : Tidy s (s.postWindow i w) := tidy_postEvent s _

/-- A candidate confirmed into a FREE slot takes its place at the end of the Priority List (R43, R53). -/
theorem confirmInto_listsOk {n : Slot} {s : State} (c : Candidate) (hs : ListsOk s) (hn : (s.pan n).state = .free) :
    ListsOk (confirmInto n c s).state := by
  obtain ⟨hroom, hnodup, hmem, hfree⟩ := hs
  unfold confirmInto
  simp only
  generalize hf : Pan.confirmed c _ _ = f
  have hpresent : ∀ p : Pan, (f p).state = .present := fun p => hf ▸ rfl
  cases he : editPan n f s with
  | safe v => exact listsOk_of_safe he
  | ok t =>
    obtain ⟨hpan, hc, hl⟩ := editPan_leaves he
    have hstate : (t.pan n).state = .present := by
      rw [hpan, if_pos rfl]
      exact hpresent _
    have hplaced : ListsOk { t with priority := t.priority ++ [n] } := by
      refine ⟨hc ▸ hroom, ?_, fun m => ?_, fun m hm => ?_⟩
      · have hnot : n ∉ s.priority := fun h => (hmem n).mp h hn
        rw [hl]
        exact List.nodup_append.mpr ⟨hnodup, List.nodup_singleton n, fun a ha b hb => by
          rw [List.mem_singleton.mp hb]
          rintro rfl
          exact hnot ha⟩
      · change m ∈ t.priority ++ [n] ↔ (t.pan m).state ≠ .free
        rw [hl, List.mem_append, List.mem_singleton, hmem]
        by_cases hm : m = n
        · rw [hm, hstate]
          exact iff_of_true (.inr rfl) nofun
        · rw [hpan m, if_neg hm]
          exact or_iff_left hm
      · change (t.pan m).state = .free at hm
        change t.pan m = { Pan.freed (t.pan m).tag with codeOk := (t.pan m).codeOk }
        by_cases hmn : m = n
        · rw [hmn, hstate] at hm
          cases hm
        · rw [hpan m, if_neg hmn] at hm ⊢
          exact hfree m hm
    have hposted : ∀ i, ListsOk ((({ t with priority := t.priority ++ [n] } : State).setPartSecond n 0).postPan .panConfirmed i) :=
      fun i => (tidy_frame.trans (tidy_setPartSecond _ n 0) (tidy_postPan _ _ i)).lists hplaced
    rw [Flow.ok_andThen]
    split
    · exact (tidy_postWindow _ _ _).lists (hposted _)
    · exact hposted _

theorem stepConfirm_listsOk : ∀ (l kept : List Candidate) {s : State}, ListsOk s → kept.length + l.length ≤ Config.candidateRoom →
    ListsOk (stepConfirm l kept s).state
  | [], kept, s, hs, h => (tidy_candidates fun _ => h).lists hs
  | c :: rest, kept, s, hs, h => by
    have hkept : ∀ x : Candidate, (kept ++ [x]).length + rest.length ≤ Config.candidateRoom := fun x => by
      rw [List.length_append]
      simp only [List.length_cons, List.length_nil] at h ⊢
      omega
    unfold stepConfirm
    split
    · split
      · next n hn =>
        refine Keeps.andThen (confirmInto_listsOk c hs (freeSlot_eq_some_iff.mp hn).1) fun t ht => stepConfirm_listsOk rest kept ht ?_
        simp only [List.length_cons] at h
        omega
      · split
        · exact stepConfirm_listsOk rest _ hs (hkept _)
        · exact stepConfirm_listsOk rest _ ((tidy_postEvent s _).lists hs) (hkept _)
    · exact stepConfirm_listsOk rest _ hs (hkept _)

theorem tidy_stepOwners (s : State) : Leads Tidy s (stepOwners s) :=
  tidy_frame.andThen (tidy_frame.forEach (fun c => tidy_frame.editCoil c _) _ s) fun t =>
    tidy_frame.andThen (tidy_frame.forEach (fun c u => by
      split
      · exact tidy_frame.editCoil c _ u
      · exact tidy_frame.here u) _ t) (tidy_reportAll _)

theorem tidy_stepMoved (picks : List Pick) (s : State) : Tidy s (stepMoved picks s) :=
  tidy_frame.foldl (fun t p => by
    split
    · exact tidy_frame.refl t
    · exact tidy_postEvent t _) _ s

theorem tidy_windowPan (n : Slot) (s : State) : Leads Tidy s (windowPan n s) := by
  unfold windowPan
  split
  · next hst =>
    have hn : (s.pan n).state ≠ .free := by rw [hst]; nofun
    split
    · next w _ =>
      split
      · exact tidy_frame.here s
      · refine tidy_frame.bind (tidy_editTaken (f := Pan.takePreset w (presetLevel (s.window w).preset)) hn (fun _ => id) fun _ => rfl)
          fun t ht => .ok ?_
        have hpost := tidy_postWindow t (t.panId n) w
        split
        · exact tidy_frame.trans hpost (tidy_raise (hpost.taken (ht.taken hn)))
        · exact hpost
    · exact tidy_editTaken hn (fun _ => id) fun _ => rfl
  · exact tidy_frame.here s

theorem tidy_stepWindowsFrom : ∀ (l : List Slot) (gs : List Gen) (s : State), Leads Tidy s (stepWindowsFrom l gs s)
  | [], gs, s => tidy_reportAll gs s
  | n :: rest, _, s => tidy_frame.andThen (tidy_windowPan n s) fun t => tidy_stepWindowsFrom rest _ t

theorem tidy_barredPan (n : Slot) (s : State) : Leads Tidy s (barredPan n s) := by
  unfold barredPan
  simp only
  split
  · next h =>
    have hn : (s.pan n).state ≠ .free := by rw [h.1]; nofun
    refine tidy_frame.bind (tidy_frame.checkPan n s) fun t ht =>
      tidy_frame.bind (tidy_frame.forEach tidy_frame.checkCoil _ t) fun u hu => ?_
    split
    · exact tidy_frame.here u
    · exact tidy_frame.andThen (tidy_editTaken (hu.taken (ht.taken hn)) (fun _ => id) fun _ => rfl) fun v => .ok (tidy_postEvent v _)
  · exact tidy_frame.here s

theorem tidy_barredFrom : ∀ (l : List Slot) (gs : List Gen) (s : State), Leads Tidy s (barredFrom l gs s)
  | [], gs, s => tidy_reportAll gs s
  | n :: rest, _, s => tidy_frame.andThen (tidy_barredPan n s) fun t => tidy_barredFrom rest _ t

/-- An evaluation keeps the lists in order: its first steps and its last are tidy, and each confirmation finds a FREE slot. -/
theorem evaluate_listsOk : Keeps ListsOk evaluate := by
  intro s hs
  refine Keeps.andThen (keeps_of_tidy (tidy_frame.forEach tidy_frame.checkCoil _) s hs) fun s1 h1 => ?_
  refine Keeps.andThen (keeps_of_tidy (tidy_frame.forEach tidy_frame.checkPan _) s1 h1) fun s2 h2 => ?_
  have hpicks : ∀ p ∈ s2.picks s1.components, (s2.pan p.slot).state ≠ .free := fun _ => present_of_pick
  have hfirst : Leads Tidy s2 ((stepSole (s2.picks s1.components) s2).andThen fun t =>
      (stepShared s1.components (s2.picks s1.components) t).andThen fun u =>
        (stepLost (s2.picks s1.components) u).andThen (stepCandidates (unpickedOf s1.components (s2.picks s1.components)))) :=
    tidy_frame.bind (tidy_stepSole hpicks) fun t ht => tidy_frame.andThen (tidy_stepShared _ fun p hp => ht.taken (hpicks p hp)) fun u =>
      tidy_frame.andThen (tidy_stepLost _ u) (tidy_stepCandidates _)
  have hlast : ∀ t, ListsOk t → ListsOk ((stepConfirm t.candidates [] t).andThen fun u => (stepOwners u).andThen fun u =>
      (stepWindows (stepMoved (s2.picks s1.components) u)).andThen fun u => (replanPass u).andThen (barredFrom allSlots [])).state :=
    fun t ht => Keeps.andThen (stepConfirm_listsOk t.candidates [] ht (by simpa using ht.1)) fun u hu =>
      Leads.listsOk (tidy_frame.andThen (tidy_stepOwners u) fun v => tidy_frame.after (tidy_stepMoved _ v)
        (tidy_frame.andThen (tidy_stepWindowsFrom _ [] _) fun w =>
          tidy_frame.andThen (tidy_replanPass w) (tidy_barredFrom _ []))) hu
  have h := Keeps.andThen (hfirst.listsOk h2) hlast
  simp only [Flow.andThen_assoc] at h
  exact h

end Sys2Proof.Machine

/-! PROOFS. The requests and the expiries keep the Pan Tracker's lists in order, and so every step does (R40, R42, R43, R188). -/

namespace Sys2Proof.Machine

/-! ## Generators that leave, join and sweep -/

theorem kept_without (c : CoilNo) (p : Pan) : p.Kept (p.without c) :=
  .of_fixed rfl rfl fun hp hf => by
    have hnil : p.footprint = [] := congrArg Pan.footprint (hp hf)
    have hsame : p.footprint.filter (fun d => decide (d ≠ c)) = p.footprint := by
      rw [hnil]
      rfl
    rw [Pan.without, hsame]

theorem tidy_coilLeaves (c : CoilNo) (s : State) : Leads Tidy s (coilLeaves c s) :=
  tidy_frame.andThen (tidy_frame.editCoil c _ s) fun t => by
    split
    · split
      · exact tidy_editPan (kept_without c _)
      · exact tidy_frame.here t
    · exact tidy_frame.here t

theorem tidy_postShrunk (before s : State) : Tidy s (postShrunk before s) :=
  tidy_frame.foldl (fun t n => by
    split
    · exact tidy_postPan t _ _
    · exact tidy_frame.refl t) _ s

theorem tidy_coilsLeave (g : Gen) (s : State) : Leads Tidy s (coilsLeave g s) :=
  tidy_frame.andThen (tidy_frame.forEach tidy_coilLeaves _ s) fun t => tidy_frame.after (tidy_postShrunk s t)
    (tidy_frame.andThen (tidy_frame.forEach (fun c => tidy_frame.editCoil c _) _ _) (tidy_reportAll _))

theorem tidy_discardPartial (s : State) (g : Gen) : Tidy s (s.discardPartial g) := by
  unfold State.discardPartial
  split
  · exact .of_same rfl rfl rfl
  · exact tidy_frame.refl s

theorem tidy_postStopped (s : State) (g : Gen) (cause : StopCause) : Tidy s (s.postStopped g cause) := tidy_postEvent s _

theorem tidy_postGen (s : State) (k : EventKind) (g : Gen) : Tidy s (s.postGen k g) := tidy_postEvent s _

theorem tidy_setAlloc (s : State) (g : Gen) (a : Alloc) : Tidy s (s.setAlloc g a) := .of_same rfl rfl rfl

theorem tidy_disableGen (g : Gen) (s : State) : Leads Tidy s (disableGen g s) := by
  have hdiscard := tidy_discardPartial s g
  unfold disableGen
  split
  · exact tidy_frame.here s
  · exact .ok (tidy_frame.trans hdiscard (tidy_frame.trans (tidy_setDesk _ g _) (tidy_postStopped _ g _)))
  · exact tidy_frame.after hdiscard (tidy_frame.andThen (tidy_stopGen g _ _) (tidy_coilsLeave g))

theorem tidy_enableGen (g : Gen) (s : State) : Leads Tidy s (enableGen g s) := by
  unfold enableGen
  split
  · exact tidy_frame.after (tidy_setDesk s g _) (tidy_frame.forEach (fun c => tidy_frame.editCoil c _) _ _)
  · exact tidy_frame.here s

theorem tidy_switchGens (enable disable : List Gen) (s : State) : Leads Tidy s (switchGens enable disable s) :=
  tidy_frame.forEach (fun g t => by
    split
    · exact tidy_disableGen g t
    · split
      · exact tidy_enableGen g t
      · exact tidy_frame.here t) _ s

theorem settle_listsOk (before : State) : Keeps ListsOk (settle before) := keeps_of_tidy (tidy_settle before)

theorem replan_settles_listsOk (before : State) : Keeps ListsOk fun s => (replanPass s).andThen (settle before) :=
  keeps_of_tidy fun s => tidy_frame.andThen (tidy_replanPass s) (tidy_settle before)

theorem doIf_listsOk {k : Op} (b : Bool) (h : Keeps ListsOk k) : Keeps ListsOk (doIf b k) := fun s hs => by
  unfold doIf
  split
  · exact h s hs
  · exact hs

theorem enableGens_listsOk (enable disable : List Gen) : Keeps ListsOk (enableGens enable disable) := fun s hs =>
  Keeps.andThen ((tidy_switchGens enable disable s).listsOk hs) fun t ht =>
    Keeps.andThen (doIf_listsOk _ evaluate_listsOk t ht) (settle_listsOk s)

/-- The last steps of HELLO: the home coils come back, and the generator joins. -/
theorem tidy_joins (g : Gen) (b : Bool) (before s : State) :
    Leads Tidy s ((forEach (fun c => editCoil c Coil.comeBack) (homeCoils g) s).andThen fun t =>
      (doIf b replanPass ((t.setDesk g { t.desk g with state := .joined }).postGen .generatorJoined g)).andThen (settle before)) := by
  refine tidy_frame.andThen (tidy_frame.forEach (fun c => tidy_frame.editCoil c _) _ _) fun t => ?_
  have hjoined : ∀ d, Tidy t ((t.setDesk g d).postGen .generatorJoined g) := fun d =>
    tidy_frame.trans (tidy_setDesk t g d) (tidy_postGen _ _ g)
  exact tidy_frame.after (hjoined _) (tidy_frame.andThen (tidy_frame.doIf b tidy_replanPass _) (tidy_settle before))

theorem tidy_hello (g : Gen) (s : State) : Leads Tidy s (hello g s) := by
  refine tidy_frame.andThen (tidy_releaseOrder g false s) fun t => ?_
  have hdrop : Tidy t (if (t.desk g).order.isSome then t.dropOrderPosting g else t) := by
    split
    · exact tidy_dropOrderPosting t g
    · exact tidy_frame.refl t
  simp only
  generalize (if (t.desk g).order.isSome then t.dropOrderPosting g else t) = u at hdrop
  have hvacant : ∀ d, Tidy t ((u.emptyMemory g).setDesk g d) := fun d =>
    tidy_frame.trans hdrop (tidy_frame.trans (tidy_emptyMemory u g) (tidy_setDesk _ g d))
  exact tidy_frame.after (hvacant _) (tidy_joins g _ s _)

theorem tidy_applyEntry (g : Gen) (e : SweepEntry) (s : State) : Leads Tidy s (applyEntry g e s) :=
  tidy_frame.andThen (tidy_frame.rewriteCoil e.coil _ s) fun t => .ok (by
    split
    · exact tidy_postEvent t _
    · exact tidy_frame.refl t)

theorem applyEntries_listsOk (g : Gen) : ∀ (es : List SweepEntry) (k : Nat) (gs : List Gen) {s : State}, ListsOk s →
    ListsOk (applyEntries g es k gs s).flow.state
  | [], _, _, _, hs => hs
  | e :: rest, k, gs, s, hs => by
    have hcheck := (tidy_frame.checkCoil e.coil s).listsOk hs
    have happly := (tidy_applyEntry g e s).listsOk hs
    unfold applyEntries
    split
    · next t ht => rwa [ht] at hcheck
    · next t ht =>
      cases checkCoil_ok ht
      split
      · simp only
        split
        · next v hv => rwa [hv] at happly
        · next u hu =>
          rw [hu] at happly
          exact applyEntries_listsOk g rest k _ happly
      · exact applyEntries_listsOk g rest _ gs hs

theorem sweep_listsOk (g : Gen) (es : List SweepEntry) {s : State} (hs : ListsOk s) : ListsOk (sweep g es s).1.state :=
  Keeps.andThen (applyEntries_listsOk g es 0 [] hs) fun t ht => Keeps.andThen ((tidy_reportAll _ t).listsOk ht) fun u hu =>
    Keeps.andThen (evaluate_listsOk u hu) (settle_listsOk s)

/-! ## FETCH -/

theorem delivery_listsOk (g : Gen) (n : Byte) {s : State} (hs : ListsOk s) : ListsOk (delivery g n s).1 := by
  have hwait : ∀ entry k, ListsOk (s.waitAt g entry k).1 := fun entry k => (tidy_setDesk s g _).lists hs
  unfold delivery
  split
  · rw [delivered_fst]
    exact (tidy_deliver g s).listsOk hs
  · split
    · exact hwait n 1
    · rw [delivered_fst]
      exact (tidy_frame.andThen (tidy_buildOrder g s) (tidy_deliver g)).listsOk hs
  · split
    · split
      · exact (tidy_frame.trans (tidy_setDesk s g _) (tidy_postGen _ _ g)).lists hs
      · exact hwait _ _
    · exact hwait n 1

theorem tidy_confirm (g : Gen) (o : Order) (s : State) : Leads Tidy s (confirm g o s) :=
  tidy_frame.andThen (tidy_releaseOrder g false s) fun t => .ok <|
    tidy_frame.trans (tidy_dropOrderPosting t g) (tidy_frame.trans (tidy_setAlloc _ g _) (tidy_setDesk _ g _))

theorem fetch_listsOk (g : Gen) (n : Byte) {s : State} (hs : ListsOk s) : ListsOk (fetch g n s).1 := by
  unfold fetch
  split
  · next o _ =>
    split
    · have h := (tidy_confirm g o s).listsOk hs
      split
      · next t ht =>
        rw [ht] at h
        exact delivery_listsOk g n h
      · next v hv => rwa [hv] at h
    · have h : ListsOk (mismatchStop g s).state :=
        Keeps.andThen ((tidy_stopGen g _ s).listsOk hs) (replan_settles_listsOk s)
      split
      · next t ht => rwa [ht] at h
      · next v hv => rwa [hv] at h
  · split
    · exact delivery_listsOk g n hs
    · exact hs

/-! ## The panel -/

theorem tidy_holdFrom : ∀ (slots : List Slot) (gs : List Gen) {s : State}, (∀ n ∈ slots, (s.pan n).state ≠ .free) →
    Leads Tidy s (holdFrom slots gs s)
  | [], gs, s, _ => tidy_reportAll gs s
  | n :: rest, _, _, h => tidy_frame.bind (tidy_editTaken (h n List.mem_cons_self) (fun _ => id) fun _ => rfl) fun _ ht =>
      tidy_holdFrom rest _ fun m hm => ht.taken (h m (List.mem_cons_of_mem _ hm))

theorem taken_of_occupied {s : State} {slots : List Slot} {n : Slot} (h : n ∈ s.occupied slots) : (s.pan n).state ≠ .free :=
  of_decide_eq_true (List.mem_filter.mp h).2

/-- HELD written on slots in use. -/
theorem tidy_marks (b : Bool) {slots : List Slot} {s : State} (h : ∀ n ∈ slots, (s.pan n).state ≠ .free) :
    Leads Tidy s (forEach (fun n => editPan n fun p => { p with held := b }) slots s) :=
  tidy_frame.forEach_of _ s fun n hn _ ht => tidy_editTaken (ht.taken (h n hn)) (fun _ => id) fun _ => rfl

theorem tidy_holdSlots (slots : List Slot) (s : State) : Leads Tidy s (holdSlots slots s) :=
  tidy_frame.andThen (tidy_holdFrom _ [] fun _ => taken_of_occupied) (tidy_settle s)

/-- Slots in use brought to the front of the Priority List (R93). -/
theorem tidy_raiseAll {slots : List Slot} {s : State} (hd : slots.Nodup) (h : ∀ n ∈ slots, (s.pan n).state ≠ .free) :
    Tidy s (s.raiseAll slots) := by
  refine ⟨fun _ => .refl _, fun ⟨hroom, hnodup, hmem, hfree⟩ => ⟨hroom, ?_, fun n => ?_, hfree⟩⟩
  · refine List.nodup_append.mpr ⟨hd, hnodup.filter _, fun a ha b hb hab => ?_⟩
    exact of_decide_eq_true (List.mem_filter.mp hb).2 (hab ▸ ha)
  · change n ∈ slots ++ s.priority.filter _ ↔ (s.pan n).state ≠ .free
    rw [List.mem_append, List.mem_filter, hmem]
    by_cases hn : n ∈ slots
    · exact iff_of_true (.inl hn) (h n hn)
    · simp [hn]

theorem tidy_resumeSlots {slots : List Slot} (hd : slots.Nodup) (s : State) : Leads Tidy s (resumeSlots slots s) :=
  tidy_frame.bind (tidy_marks false fun _ => taken_of_occupied) fun _ ht =>
    tidy_frame.after (tidy_raiseAll (hd.filter _) fun _ hn => ht.taken (taken_of_occupied hn)) (tidy_settle s _)

theorem tidy_stopAll (s : State) : Leads Tidy s (stopAll s) :=
  tidy_frame.andThen (tidy_marks true fun _ => taken_of_occupied) fun t =>
    tidy_frame.andThen (tidy_frame.forEach (fun g => tidy_stopGen g _) _ t) fun u =>
      tidy_frame.andThen (tidy_frame.doIf _ tidy_replanPass u) (tidy_settle s)

/-! ## Caps -/

theorem tidy_setAccount (s : State) (p : Phase) (a : Account) : Tidy s (s.setAccount p a) := .of_same rfl rfl rfl

theorem tidy_setWindow (s : State) (n : WindowNo) (w : Window) : Tidy s (s.setWindow n w) := .of_same rfl rfl rfl

theorem tidy_setPermit (s : State) (x : Permit) : Tidy s { s with permit := x } := .of_same rfl rfl rfl

theorem tidy_arm (s : State) (x : TestTarget) : Tidy s (s.arm x) := by
  cases x <;> exact .of_same rfl rfl rfl

theorem tidy_postShed (s : State) (k : EventKind) (p : Phase) : Tidy s (s.postShed k p) := tidy_postEvent s _

theorem tidy_moveTarget (p : Phase) (target deadline : Nat) (s : State) : Leads Tidy s (moveTarget p target deadline s) := by
  unfold moveTarget
  split
  · exact tidy_frame.here s
  · split
    · unfold State.settleCap
      simp only
      split
      · exact .ok (tidy_frame.trans (tidy_setAccount s p _) (tidy_postShed _ _ p))
      · exact .ok (tidy_setAccount s p _)
    · have hcut := tidy_setAccount s p { s.account p with target := target, shed := some ⟨deadline, deadline⟩ }
      unfold startShed
      simp only
      split
      · split
        · exact tidy_frame.after hcut (tidy_reportAll _ _)
        · exact .ok hcut
      · exact tidy_frame.after (tidy_frame.trans hcut (tidy_postShed _ .shedStarted p)) (tidy_reportAll _ _)

/-! ## The time base and the expiries -/

theorem kept_tick (b : Bool) (p : Pan) : p.Kept (p.tick b) :=
  .of_fixed rfl rfl fun hp hf => by
    have hboost : p.boost = none := congrArg Pan.boost (hp hf)
    have hsame : (if b then downOne p.boost else p.boost) = p.boost := by
      rw [hboost]
      exact ite_self none
    rw [Pan.tick, hsame, if_neg (by rw [hf]; nofun)]

theorem tidy_tickCounts (s : State) : Tidy s s.tickCounts := .of_same rfl rfl rfl

theorem tidy_millisecond (s : State) : Leads Tidy s (millisecond s) :=
  tidy_frame.after (tidy_tickCounts s) (tidy_frame.forEach (fun _ _ => tidy_editPan (kept_tick _ _)) _ _)

theorem tidy_decrementTimer (n : Slot) (s : State) : Leads Tidy s (decrementTimer n s) := by
  refine tidy_frame.andThen (tidy_editPan (.of_fixed rfl rfl fun hp hf => ?_)) fun t => .ok (tidy_setPartSecond t n 0)
  have htimer : (s.pan n).timer = none := congrArg Pan.timer (hp hf)
  have hsame : (s.pan n).timer.map (· - 1) = (s.pan n).timer := by
    rw [htimer]
    rfl
  rw [hsame]

theorem tidy_timerCompletes (n : Slot) (s : State) : Leads Tidy s (timerCompletes n s) :=
  tidy_frame.andThen (tidy_completeIfDue n s) (tidy_settle s)

theorem tidy_secondElapsed (n : Slot) (s : State) : Leads Tidy s (secondElapsed n s) :=
  tidy_frame.andThen (tidy_decrementTimer n s) fun t => tidy_frame.andThen (tidy_completeIfDue n t) (tidy_settle s)

theorem tidy_endSwitch (c : CoilNo) (s : State) : Leads Tidy s (endSwitch c s) :=
  tidy_frame.andThen (tidy_frame.editCoil c _ s) fun t => tidy_frame.andThen (by
    split
    · exact tidy_frame.editCoil c _ t
    · exact tidy_frame.followPlan c t) (tidy_settle s)

theorem tidy_post (s : State) (k : EventKind) : Tidy s (s.post k) := tidy_postEvent s _

theorem tidy_permitExpires (s : State) : Leads Tidy s (permitExpires s) := by
  have hexpired : Tidy s (({ s with permit := .expired } : State).post .permitExpired) :=
    tidy_frame.trans (.of_same (t := { s with permit := .expired }) rfl rfl rfl) (tidy_post _ _)
  exact tidy_frame.after hexpired (tidy_frame.andThen (tidy_marks true fun n => taken_of_occupied (slots := allSlots))
    fun t => tidy_frame.andThen (tidy_reportAll _ t) tidy_retestDesks)

theorem tidy_deadlineExpires (p : Phase) (s : State) : Leads Tidy s (deadlineExpires p s) :=
  tidy_frame.andThen (tidy_frame.forEach (fun g t => by
    unfold stopWhilePending
    split
    · exact tidy_stopGen g _ t
    · exact tidy_frame.here t) _ s) fun t => tidy_frame.andThen (tidy_replanPass t) (tidy_settle s)

theorem tidy_leaseExpires (g : Gen) (s : State) : Leads Tidy s (leaseExpires g s) := by
  have hyield : Tidy s (if (s.issuedOrder g).isSome then s.requestYield g else s) := by
    split
    · exact tidy_requestYield s g
    · exact tidy_frame.refl s
  exact .ok (tidy_frame.trans hyield (tidy_setDesk _ g _))

theorem tidy_yieldExpires (g : Gen) (s : State) : Leads Tidy s (yieldExpires g s) := by
  unfold yieldExpires
  split
  · exact tidy_frame.andThen (tidy_stopGen g _ s) fun t => tidy_frame.andThen (tidy_replanPass t) (tidy_settle s)
  · exact .ok (tidy_setDesk s g _)

theorem tidy_collectionExpires (g : Gen) (s : State) : Leads Tidy s (collectionExpires g s) :=
  tidy_frame.andThen (tidy_frame.checkOrder g s) fun t => tidy_frame.andThen (tidy_frame.releaseCoils g false t) fun u => by
    have hdrop : Tidy u (if (u.desk g).order.isSome then u.dropOrderPosting g else u) := by
      split
      · exact tidy_dropOrderPosting u g
      · exact tidy_frame.refl u
    exact .ok (tidy_frame.trans hdrop (tidy_setDesk _ g _))

theorem tidy_holdEnds (g : Gen) (s : State) : Leads Tidy s (holdEnds g s) := by
  unfold holdEnds
  simp only
  split
  · split
    · exact tidy_frame.after (tidy_setDesk s g _) (tidy_frame.andThen (tidy_replanPass _) (tidy_settle s))
    · exact .ok (tidy_setDesk s g _)
  · exact .ok (tidy_setDesk s g _)

/-- A pan gone leaves the Priority List, and its slot holds the values of a FREE slot (R40, R43, R60). -/
theorem panGone_listsOk (n : Slot) : Keeps ListsOk (panGone n) := by
  rintro s ⟨hroom, hnodup, hmem, hfree⟩
  unfold panGone
  cases he : editPan n (fun p => Pan.freed p.tag) s with
  | safe v => exact listsOk_of_safe he
  | ok t =>
    obtain ⟨hpan, hc, hl⟩ := editPan_leaves he
    have hgone : ListsOk { t with priority := t.priority.erase n } := by
      refine ⟨hc ▸ hroom, hl ▸ hnodup.erase n, fun m => ?_, fun m hm => ?_⟩
      · change m ∈ t.priority.erase n ↔ (t.pan m).state ≠ .free
        rw [hl, hnodup.mem_erase_iff, hmem, hpan]
        split
        · next hm => exact iff_of_false (fun h => h.1 hm) (fun h => h rfl)
        · next hm => exact and_iff_right hm
      · change (t.pan m).state = .free at hm
        change t.pan m = { Pan.freed (t.pan m).tag with codeOk := (t.pan m).codeOk }
        rw [hpan] at hm ⊢
        split
        · rfl
        · next hmn =>
          rw [if_neg hmn] at hm
          exact hfree m hm
    rw [Flow.ok_andThen]
    exact settle_listsOk s _ ((tidy_frame.trans (tidy_setPartSecond _ n 0) (tidy_postPan _ .panGone _)).lists hgone)

theorem heating_of_boost {s : State} {n : Slot} {k : Nat} (h : s.untilBoostEnd n = some k) : s.heating n = true := by
  by_contra hn
  rw [State.untilBoostEnd, if_neg hn] at h
  cases h

theorem expiry_listsOk {c : Instr} {f : State → Option Nat} {work : Op} {s : State} (hf : countOf c = some f)
    (hw : expiryWork c = some work) (h0 : f s = some 0) (hs : ListsOk s) : ListsOk (work s).state := by
  cases c <;> cases hw
  case switchEnd c => exact keeps_of_tidy (tidy_endSwitch c) s hs
  case lostTimeExpiry n => exact panGone_listsOk n s hs
  case partSecondElapsed n => exact keeps_of_tidy (tidy_secondElapsed n) s hs
  case boostEnded n =>
    cases hf
    exact (tidy_endBoost (heating_of_boost h0)).listsOk hs
  case permitExpired => exact keeps_of_tidy tidy_permitExpires s hs
  case shedDeadlineExpiry p => exact keeps_of_tidy (tidy_deadlineExpires p) s hs
  case leaseExpiry g => exact keeps_of_tidy (tidy_leaseExpires g) s hs
  case yieldTimeout g => exact keeps_of_tidy (tidy_yieldExpires g) s hs
  case collectionExpiry g => exact keeps_of_tidy (tidy_collectionExpires g) s hs
  case holdEnd g => exact keeps_of_tidy (tidy_holdEnds g) s hs

/-! ## RESTART, every request and every step -/

theorem listsOk_restart (s : State) : ListsOk (restart s) := by
  unfold restart
  generalize allGens.foldl restartGen s.unchecked = t
  exact listsOk_of_freed rfl rfl fun n => ⟨(t.pan n).tag, by simp [State.pan, State.cleared]⟩

theorem tidy_setParam (s : State) (v : Nat) (p : Param) : Tidy s (s.setParam v p) := by
  cases p <;> exact .of_same rfl rfl rfl

theorem configure_listsOk (body : List Byte) {s : State} (hs : ListsOk s) : ListsOk (serveConfigure body s).1 := by
  have hcheck : ∀ p t, checkParam p s = .safe t → ListsOk t := fun p t ht => by
    have hleads : Leads Tidy s (checkParam p s) := by
      cases p <;> first | exact tidy_frame.checkLevels s | exact tidy_frame.here s
    have h := hleads.listsOk hs
    rwa [ht] at h
  unfold serveConfigure
  repeat' split
  · exact hs
  · unfold readParam
    split
    · next ht => exact hcheck _ _ ht
    · next ht => rw [checkParam_ok ht]; exact hs
  · exact hs
  · unfold writeParam
    split
    · next ht => exact hcheck _ _ ht
    · next ht =>
      rw [checkParam_ok ht]
      split
      · exact hs
      · split
        · exact hs
        · exact (tidy_setParam s _ _).lists hs
  · exact hs
  · exact hs

theorem snapshot_listsOk {f : Flow} (h : ListsOk f.state) (fields : State → List Byte) : ListsOk (f.snapshot fields).1 := by
  cases f <;> exact h

/-- A request on a slot in use. -/
theorem serveSlot_listsOk {n : Slot} {tag : Tag} {work : Op} {s : State} (hs : ListsOk s)
    (h : (s.pan n).state ≠ .free → Leads Tidy s (work s)) : ListsOk (serveSlot n tag work s).1 := by
  unfold serveSlot
  split
  · exact hs
  · next hn =>
    split
    · exact hs
    · exact (h hn).listsOk hs

theorem serve_listsOk (k : ReqKind) (l : Link) (body : List Byte) {s : State} (hs : ListsOk s) : ListsOk (serve k l body s).1 := by
  have tidied : ∀ f, Leads Tidy s f → ListsOk f.state := fun f h => h.listsOk hs
  cases k
  case status => exact hs
  case setLevel =>
    simp only [serve, serveSetLevel]
    repeat' split
    all_goals first | exact hs | exact serveSlot_listsOk hs tidy_setLevel
  case setTimer =>
    simp only [serve, serveSetTimer]
    repeat' split
    all_goals first | exact hs | exact serveSlot_listsOk hs tidy_setTimer
  case hold =>
    simp only [serve, serveHold]
    repeat' split
    all_goals first | exact hs | exact tidied _ (tidy_holdSlots _ s)
  case resume =>
    simp only [serve, serveResume]
    repeat' split
    all_goals first | exact hs | exact tidied _ (tidy_resumeSlots (nodup_allSlots.filter _) s)
  case stopAll =>
    simp only [serve, serveStopAll]
    split
    · exact hs
    · exact tidied _ (tidy_stopAll s)
  case setWindow =>
    simp only [serve, serveSetWindow]
    repeat' split
    all_goals first | exact hs | exact tidied _ (tidy_frame.after (tidy_setWindow s _ _) (tidy_reportAll _ _))
  case permit =>
    simp only [serve, servePermit]
    repeat' split
    all_goals first | exact hs | exact tidied _ (tidy_frame.after (tidy_setPermit s _) (tidy_settle s _))
  case enableGenerators =>
    simp only [serve, serveEnable]
    repeat' split
    all_goals first | exact hs | exact enableGens_listsOk _ _ s hs
  case checkTest =>
    simp only [serve, serveCheckTest]
    repeat' split
    all_goals first | exact hs | exact (tidy_arm s _).lists hs
  case restart => exact listsOk_restart s
  case readEvents =>
    simp only [serve, serveReadEvents]
    repeat' split
    all_goals exact hs
  case readPans =>
    simp only [serve, serveReadPans]
    split
    · exact hs
    · exact snapshot_listsOk (tidied _ (tidy_frame.forEach tidy_frame.checkPan _ s)) _
  case readMap =>
    simp only [serve, serveReadMap]
    split
    · exact hs
    · exact snapshot_listsOk (tidied _ (tidy_frame.forEach tidy_frame.checkCoil _ s)) _
  case configure => exact configure_listsOk body hs
  case hello =>
    have h := tidied _ (tidy_hello (linkGen l) s)
    simp only [serve, serveHello]
    split
    · exact hs
    · split
      · exact hs
      · split
        all_goals next ht => rwa [ht] at h
  case sweep =>
    simp only [serve, serveSweep]
    repeat' split
    all_goals first | exact hs | exact sweep_listsOk _ _ hs
  case fetch =>
    simp only [serve, serveFetch]
    repeat' split
    all_goals first | exact hs | exact fetch_listsOk _ _ hs
  case setCap =>
    simp only [serve, serveSetCap, setCap]
    repeat' split
    all_goals first | exact hs | exact tidied _ (tidy_moveTarget _ _ _ s)
  case shed =>
    simp only [serve, serveShed, shedTo]
    repeat' split
    all_goals first | exact hs | exact tidied _ (tidy_moveTarget _ _ _ s)
  case readLoad =>
    simp only [serve, serveReadLoad]
    split <;> exact hs

theorem listsOk_rules : StepRules ListsOk ListsOk where
  done _ h := h
  ports _ _ h := h
  portsAfter _ _ h := h
  reset s straps _ _ := listsOk_powerOn straps s.pending s.freeCount
  millisecond := keeps_of_tidy tidy_millisecond
  decrement n := keeps_of_tidy (tidy_decrementTimer n)
  serve k l body _ hs := serve_listsOk k l body hs
  expiry _ _ _ _ hf hw h0 hs := expiry_listsOk hf hw h0 hs
  timer n s hs := (tidy_timerCompletes n s).listsOk hs
  retest g s hs := (tidy_retestDesk g s).listsOk hs

/-- Settles O10: every event keeps the lists and the FREE slots in order, and CONFIGURE writes only values that fit. -/
theorem listsAndConfigurationStayInOrder : Obligations.ListsAndConfigurationStayInOrder := by
  unfold Obligations.ListsAndConfigurationStayInOrder
  rintro s t ⟨hlists, hconfig⟩ ht
  exact ⟨step_keeps listsOk_rules (fun _ _ _ h => h) hlists ht, step_keeps configOk_rules.stepRules (fun _ _ _ h => h) hconfig ht⟩

end Sys2Proof.Machine

/-! PROOFS. HELLO (R16, R142, R159): its work step by step, and what it leaves with every code valid. -/

namespace Sys2Proof.Machine

/-! ## HELLO's steps -/

theorem Flow.andThen_congr {f : Flow} {k j : Op} (h : ∀ t, f = .ok t → k t = j t) : f.andThen k = f.andThen j := by
  cases f with
  | ok t => exact h t rfl
  | safe v => rfl

/-- What HELLO makes of the state once the order of this desk is released: the order gone, the desk and the memory empty. -/
def State.helloEmptied (s : State) (g : Gen) (x : State) : State :=
  let w := if (s.desk g).order.isSome then x.dropOrderPosting g else x
  { w with
    desks := w.desks.set g { s.desk g with
      desk := .empty, repeats := 0, order := none,
      lastConfirmed := 0, lease := none, yield := none, collection := none, hold := none }
    allocs := w.allocs.set g { s.alloc g with memory := [] } }

/-- The generator joined, and the event posted. -/
def State.helloJoined (s : State) (g : Gen) (x : State) : State :=
  (x.setDesk g { x.desk g with state := .joined }).postEvent ⟨.generatorJoined, s.now % 65536, none, some g, none, none⟩

theorem now_dropOrderPosting (s : State) (g : Gen) : (s.dropOrderPosting g).now = s.now := by
  unfold State.dropOrderPosting
  split
  · exact State.now_postEvent _ _
  · rfl

/-- A generator's desk and memory emptied. -/
theorem emptied_eq {w : State} {g : Gen} {d : Desk} {a : Alloc} (hd : ∃ o, w.desk g = { d with order := o }) (ha : w.alloc g = a) :
    (w.emptyMemory g).setDesk g { ((w.emptyMemory g).desk g).emptied d.state with lastConfirmed := 0 } =
      { w with
        desks := w.desks.set g { d with
          desk := .empty, repeats := 0, order := none, lastConfirmed := 0, lease := none, yield := none, collection := none, hold := none }
        allocs := w.allocs.set g { a with memory := [] } } := by
  obtain ⟨o, hd⟩ := hd
  change (w.emptyMemory g).setDesk g { (w.desk g).emptied d.state with lastConfirmed := 0 } = _
  rw [hd, State.emptyMemory, ha]
  rfl

/-- HELLO's work after the release, in the words of `helloEmptied`. -/
theorem helloEmptied_eq {s x : State} (g : Gen) (h : RecordsOnly s x) :
    (let t := if (x.desk g).order.isSome then x.dropOrderPosting g else x
     let t := t.emptyMemory g
     t.setDesk g { (t.desk g).emptied (s.desk g).state with lastConfirmed := 0 }) = s.helloEmptied g x := by
  unfold State.helloEmptied
  simp only [h.desk]
  refine emptied_eq ?_ ?_
  · split
    · exact ⟨none, by rw [desk_dropOrderPosting, h.desk, if_pos rfl]⟩
    · exact ⟨_, h.desk g⟩
  · split
    · rw [alloc_dropOrderPosting, h.alloc]
    · exact h.alloc g

theorem helloEmptied_now (s : State) (g : Gen) (x : State) : (s.helloEmptied g x).now = x.now := by
  unfold State.helloEmptied
  simp only
  split
  · exact now_dropOrderPosting x g
  · rfl

/-- HELLO, step by step (R142). -/
theorem hello_eq (g : Gen) (s : State) : hello g s = (releaseOrder g false s).andThen fun x =>
    (forEach (fun c => editCoil c Coil.comeBack) (homeCoils g) (s.helloEmptied g x)).andThen fun y =>
      (if (s.desk g).state.inService then Flow.ok (s.helloJoined g y) else replanPass (s.helloJoined g y)).andThen (settle s) := by
  refine Flow.andThen_congr fun x hx => ?_
  have hrecords : RecordsOnly s x := (recordsOnly_frame.releaseOrder g false s).of_ok hx
  have hempty := helloEmptied_eq g hrecords
  simp only at hempty ⊢
  rw [hempty]
  refine Flow.andThen_congr fun y hy => ?_
  have hcoils : RecordsOnly (s.helloEmptied g x) y :=
    (recordsOnly_frame.forEach (fun c => recordsOnly_frame.editCoil c _) _ _).of_ok hy
  have hnow : y.now = s.now := (hcoils.keeps State.now rfl).trans ((helloEmptied_now s g x).trans (hrecords.keeps State.now rfl))
  have hjoined : (y.setDesk g { y.desk g with state := .joined }).postGen .generatorJoined g = s.helloJoined g y := by
    rw [State.helloJoined, ← hnow]
    rfl
  rw [hjoined]
  unfold doIf
  cases (s.desk g).state.inService <;> rfl

theorem comeBack_eq (r : Coil) : r.comeBack = match r.state with
    | .off none => { r with fault := false, coverage := none, state := .free }
    | .off (some left) => { r with fault := false, coverage := none, state := .switching none left }
    | .releasing o n _ => { r with fault := false, state := .releasing o n false }
    | _ => { r with fault := false } := by
  obtain ⟨_, _, _, _, state, _⟩ := r
  cases state with
  | off m => cases m <;> rfl
  | _ => rfl

/-! ## With every code valid -/

/-- A desk with no order that is not WAITING keeps as it is through a re-plan pass and what settles then. -/
theorem settles_still {s : State} {g : Gen} (before : State) (hs : s.Sound) (hg : (s.desk g).Still) :
    (∃ u, settle before s = .ok u ∧ Settled before s u ∧ u.desk g = s.desk g) ∧
      ∃ s1, replanPass s = .ok s1 ∧ s1.Sound ∧ OrderWork s s1 ∧ (s1.desk g) = s.desk g := by
  have hnone : HoldsNone (fun h => h ≠ g) s := fun h hh => not_not.mp hh ▸ hg.1
  have hwaits : WaitsNone (fun h => h ≠ g) s := fun h hh => not_not.mp hh ▸ hg.2
  obtain ⟨u, hu, hpath, _⟩ := (run_settle before s hnone hwaits).completes hs
  obtain ⟨s1, h1, hpath', hsound⟩ := (run_replanPass (w := .orders) s hnone).completes hs
  exact ⟨⟨u, hu, settled_of hs hu, hpath.desk fun h => h rfl⟩, s1, h1, hsound, hpath'.orderWork, hpath'.desk fun h => h rfl⟩

theorem sound_helloEmptied {s x : State} (hx : x.Sound) (g : Gen) : (s.helloEmptied g x).Sound := by
  have hdrop : (if (s.desk g).order.isSome then x.dropOrderPosting g else x).Sound := by
    split
    · exact (path_dropPosting x g).sound hx
    · exact hx
  unfold State.helloEmptied
  simp only
  generalize (if (s.desk g).order.isSome then x.dropOrderPosting g else x) = w at hdrop
  have hdesk := sound_setDesk hdrop g (d := { s.desk g with
      desk := .empty, repeats := 0, order := none,
      lastConfirmed := 0, lease := none, yield := none, collection := none, hold := none }) rfl
  exact ⟨hdesk.coils, hdesk.pans, hdesk.orders, hdesk.levels, hdesk.marks⟩

theorem codeOk_comeBack (r : Coil) : r.comeBack.codeOk = r.codeOk := by
  rw [comeBack_eq]
  split <;> rfl

/-- The home coils of a generator come back. -/
def State.backHome (w : State) (g : Gen) : State :=
  { w with coils := Vector.ofFn fun c => if homeGen c = g then (w.coil c).comeBack else w.coil c }

theorem desk_backHome (w : State) (g h : Gen) : (w.backHome g).desk h = w.desk h := by
  simp only [State.backHome, State.desk]

theorem still_helloEmptied (s : State) (g : Gen) (x : State) : ((s.helloEmptied g x).desk g).Still := by
  simp only [State.helloEmptied, State.desk, Fin.getElem_fin, Vector.getElem_set_self]
  exact ⟨rfl, nofun⟩

theorem backHome_of_sound {w : State} (hw : w.Sound) (g : Gen) :
    forEach (fun c => editCoil c Coil.comeBack) (homeCoils g) w = .ok (w.backHome g) ∧ (w.backHome g).Sound := by
  have hsound := sound_withCoils hw (f := fun c => if homeGen c = g then (w.coil c).comeBack else w.coil c) fun c => by
    split
    · exact (codeOk_comeBack _).trans (hw.coils c)
    · exact hw.coils c
  rw [withCoils_eq] at hsound
  refine ⟨?_, hsound⟩
  rw [forEach_editCoil_of_sound (f := fun _ => Coil.comeBack) (fun _ r hr => (codeOk_comeBack r).trans hr) (homeCoils g)
    (nodup_allCoils.filter _) hw, withCoils_eq]
  simp only [homeCoils, List.mem_filter, mem_allCoils, true_and, decide_eq_true_eq]
  rfl

/-- HELLO with every code valid: nothing is abandoned, and the desk stays as HELLO writes it. -/
theorem hello_of_sound {s : State} (hs : s.Sound) (g : Gen) : ∃ s1 s3 u, releaseOrder g false s = .ok s1 ∧
    let s2 := s.helloJoined g ((s.helloEmptied g s1).backHome g)
    ((s.desk g).state.inService = false → replanPass s2 = .ok s3 ∧ OrderWork s2 s3) ∧ ((s.desk g).state.inService = true → s3 = s2) ∧
      Settled s s3 u ∧ hello g s = .ok u ∧ u.desk g = s2.desk g := by
  obtain ⟨s1, h1, hsound1, _⟩ := releaseOrder_records hs g false
  obtain ⟨hcoils, hback⟩ := backHome_of_sound (sound_helloEmptied (s := s) hsound1 g) g
  obtain ⟨y, hy⟩ : ∃ y, y = (s.helloEmptied g s1).backHome g := ⟨_, rfl⟩
  rw [← hy] at hcoils hback
  have hdesk : (y.desk g).Still := by
    rw [hy, desk_backHome]
    exact still_helloEmptied s g s1
  have hjoinedDesk : (s.helloJoined g y).desk g = { y.desk g with state := .joined } := by
    rw [State.helloJoined, State.desk_postEvent, State.desk_setDesk_self]
  have hstill : ((s.helloJoined g y).desk g).Still := by
    rw [hjoinedDesk]
    exact hdesk
  have hsound2 : (s.helloJoined g y).Sound := sound_postEvent (sound_setDesk hback g (d := { y.desk g with state := .joined }) (hback.orders g)) _
  have hwork := hello_eq g s
  rw [h1, Flow.ok_andThen, hcoils, Flow.ok_andThen] at hwork
  obtain ⟨⟨u, hu, hsettled, hkept⟩, s3, h3, hsound3, hframe, hdesk3⟩ := settles_still s hsound2 hstill
  by_cases hin : (s.desk g).state.inService = true
  · rw [if_pos hin, Flow.ok_andThen] at hwork
    refine ⟨s1, s.helloJoined g y, u, h1, ?_⟩
    rw [← hy]
    exact ⟨fun h => absurd (hin.symm.trans h) nofun, fun _ => rfl, hsettled, hwork.trans hu, hkept⟩
  · obtain ⟨⟨u', hu', hsettled', hkept'⟩, _⟩ := settles_still s hsound3 (g := g) (hdesk3 ▸ hstill)
    rw [if_neg hin, h3, Flow.ok_andThen] at hwork
    refine ⟨s1, s3, u', h1, ?_⟩
    rw [← hy]
    exact ⟨fun _ => ⟨h3, hframe⟩, fun h => absurd h hin, hsettled', hwork.trans hu', hkept'.trans hdesk3⟩

theorem serve_hello_ok {s t : State} {g : Gen} (hs : s.safe = false) (hd : (s.desk g).state ≠ .disabled) (h : hello g s = .ok t) :
    serve .hello (.gl g) [] s = (t, .done (t.helloFields g)) := by
  simp [serve, serveHello, hs, hd, linkGen, h]

theorem serve_hello_safe {s t : State} {g : Gen} (hs : s.safe = false) (hd : (s.desk g).state ≠ .disabled) (h : hello g s = .safe t) :
    serve .hello (.gl g) [] s = (t, .refused .safe) := by
  simp [serve, serveHello, hs, hd, linkGen, h]

/-- Settles O35: HELLO's answer, and what it leaves with every code valid. -/
theorem helloJoins : Obligations.HelloJoins := by
  unfold Obligations.HelloJoins
  intro s g hl hsafe hd back fields emptied joined f
  have hback : back = Coil.comeBack := funext fun r => (comeBack_eq r).symm
  have hf : f = hello g s := by
    rw [hello_eq, ← hback]
    rfl
  have hrun : Serves s (hello g s) := run_hello g s trivial (holdsNone_all s) (waitsNone_all s)
  refine ⟨fun u hu => ?_, fun v hv => ⟨?_, ?_⟩, fun hs => ?_⟩
  · rw [hf] at hu
    have hserve := serve_hello_ok hsafe hd hu
    rw [hu] at hrun
    obtain ⟨t, ht, hend⟩ := hrun
    have hunmoved : Unmoved s u := by
      rcases hend with h | ⟨b, _, h⟩
      · exact Flow.ok.inj h ▸ ht.unmoved
      · exact nomatch h
    have hfields : u.helloFields g = fields := by
      simp only [State.helloFields, State.genPhase, hunmoved.phaseOf, hunmoved.params]
      rfl
    rw [← hfields]
    exact exec_answered (k := .hello) hl rfl rfl (fun _ => rfl) hserve
  · exact hrun.safe.1 v (hf ▸ hv)
  · rw [hf] at hv
    exact exec_answered (k := .hello) hl rfl rfl (fun _ => rfl) (serve_hello_safe hsafe hd hv)
  · obtain ⟨s1, s3, u, h1, hreplan, hsame, hsettled, hwork, hdesk⟩ := hello_of_sound hs g
    have hjoined : s.helloJoined g ((s.helloEmptied g s1).backHome g) = joined { emptied s1 with
        coils := Vector.ofFn fun c => if homeGen c = g then back ((emptied s1).coil c) else (emptied s1).coil c } := by
      rw [hback]
      rfl
    exact ⟨s1, _, s3, u, h1, hjoined, hreplan, hsame, hsettled, hf.trans hwork, hdesk⟩

end Sys2Proof.Machine

/-! PROOFS. RESTART (R12, R17, R174, R175). Its stops read no level table; with every other code valid they release each order in
service, and what is left is written afresh. -/

namespace Sys2Proof.Machine

/-! ## The level table aside -/

/-- The state with another level table. -/
def State.withLevels (L : LevelTable) (s : State) : State := { s with levels := L }

/-- Where the work completes, it does the same whatever the level table. -/
def Blind (k : Op) : Prop := ∀ (s t : State) (L : LevelTable), k s = .ok t → k (s.withLevels L) = .ok (t.withLevels L)

theorem Blind.andThen {k j : Op} (hk : Blind k) (hj : Blind j) : Blind fun s => (k s).andThen j := fun s t L h => by
  beta_reduce at h ⊢
  cases hs : k s with
  | ok u =>
    rw [hs, Flow.ok_andThen] at h
    rw [hk s u L hs, Flow.ok_andThen, hj u t L h]
  | safe v =>
    rw [hs] at h
    exact nomatch h

theorem Blind.forEach {α : Type} {work : α → Op} (h : ∀ x, Blind (work x)) : ∀ l, Blind (forEach work l)
  | [], _, _, _, ht => by rw [← Flow.ok.inj ht]; rfl
  | x :: xs, s, t, L, ht => ((h x).andThen (Blind.forEach h xs)) s t L ht

theorem Blind.ite {c : State → Prop} [∀ s, Decidable (c s)] {k j : Op} (hc : ∀ s L, c (State.withLevels L s) ↔ c s) (hk : Blind k)
    (hj : Blind j) : Blind fun s => if c s then k s else j s := fun s t L h => by
  beta_reduce at h ⊢
  by_cases hs : c s
  · rw [if_pos hs] at h
    simpa only [if_pos ((hc s L).mpr hs)] using hk s t L h
  · rw [if_neg hs] at h
    simpa only [if_neg (mt (hc s L).mp hs)] using hj s t L h

theorem blind_update {f : State → State} (h : ∀ s L, f (State.withLevels L s) = (f s).withLevels L) : Blind fun s => .ok (f s) :=
  fun s t L ht => by
    rw [← Flow.ok.inj ht, ← h]

theorem blind_here : Blind .ok := blind_update (f := id) fun _ _ => rfl

theorem blind_doIf {k : Op} (b : Bool) (hk : Blind k) : Blind (doIf b k) :=
  Blind.ite (c := fun _ => b = true) (fun _ _ => .rfl) hk blind_here

theorem blind_bad (f : State → State) : Blind fun s => .safe (f s) := fun _ _ _ h => nomatch h

theorem blind_checkCoil (c : CoilNo) : Blind (checkCoil c) :=
  Blind.ite (c := fun s => (s.coil c).codeOk = true) (fun _ _ => .rfl) blind_here (blind_bad _)

theorem blind_checkPan (n : Slot) : Blind (checkPan n) :=
  Blind.ite (c := fun s => (s.pan n).codeOk = true) (fun _ _ => .rfl) blind_here (blind_bad _)

theorem blind_checkOrder (g : Gen) : Blind (checkOrder g) := fun s t L h => by
  unfold checkOrder at h ⊢
  cases ho : (s.desk g).order with
  | none =>
    rw [ho] at h
    rw [show ((s.withLevels L).desk g).order = none from ho]
    exact blind_here s t L h
  | some o =>
    rw [ho] at h
    rw [show ((s.withLevels L).desk g).order = some o from ho]
    exact Blind.ite (c := fun _ => o.codeOk = true) (fun _ _ => .rfl) blind_here (blind_bad _) s t L h

theorem blind_editCoil (c : CoilNo) (f : Coil → Coil) : Blind (editCoil c f) :=
  (blind_checkCoil c).andThen (Blind.ite (c := fun s => f (s.coil c) = s.coil c) (fun _ _ => .rfl) blind_here
    (blind_update (f := fun s => s.writeCoil c (f (s.coil c))) fun _ _ => rfl))

theorem blind_rewritePan (n : Slot) (f : Pan → Pan) : Blind (rewritePan n f) :=
  (blind_checkPan n).andThen (blind_update (f := fun s => s.writePan n (f (s.pan n))) fun _ _ => rfl)

theorem blind_followPlan (c : CoilNo) : Blind (followPlan c) := fun s t L h => by
  unfold followPlan at h ⊢
  have hcoil : (s.withLevels L).coil c = s.coil c := rfl
  rw [hcoil]
  split at h
  · next o _ =>
    refine (blind_checkPan o.slot).andThen (fun s t L h => ?_) s t L h
    have hpan : (s.withLevels L).pan o.slot = s.pan o.slot := rfl
    have hcoil : (s.withLevels L).coil c = s.coil c := rfl
    rw [hpan, hcoil]
    split at h
    · split at h
      · next hmoves => rw [if_pos hmoves]; exact blind_editCoil c _ s t L h
      · next hstays => rw [if_neg hstays]; exact blind_here s t L h
    · exact blind_here s t L h
  · exact blind_here s t L h

theorem blind_countEnergy (g : Gen) : Blind (countEnergy g) := fun s t L h => by
  unfold countEnergy at h ⊢
  have hdesk : (s.withLevels L).desk g = s.desk g := rfl
  rw [hdesk]
  split at h
  · refine Blind.forEach (fun l u v L h => ?_) _ s t L h
    have hpan : (u.withLevels L).pan l.pan.slot = u.pan l.pan.slot := rfl
    rw [hpan]
    split at h
    · next hadds => rw [if_pos hadds]; exact blind_rewritePan _ _ u v L h
    · next hnot => rw [if_neg hnot]; exact blind_here u v L h
  · exact blind_here s t L h

theorem blind_releaseCoils (g : Gen) (d : Bool) : Blind (releaseCoils g d) := fun s t L h => by
  unfold releaseCoils at h ⊢
  have hdesk : (s.withLevels L).desk g = s.desk g := rfl
  have hcoils : ∀ n, (s.withLevels L).orderCoils g n = s.orderCoils g n := fun _ => rfl
  rw [hdesk]
  split at h
  · rw [hcoils]
    exact Blind.forEach (fun c => (blind_editCoil c _).andThen (blind_doIf _ (blind_followPlan c))) _ s t L h
  · exact blind_here s t L h

theorem blind_releaseOrder (g : Gen) (d : Bool) : Blind (releaseOrder g d) :=
  (blind_checkOrder g).andThen ((blind_countEnergy g).andThen (blind_releaseCoils g d))

theorem withLevels_postEvent (L : LevelTable) (s : State) (e : Event) : (s.withLevels L).postEvent e = (s.postEvent e).withLevels L := by
  have hqueue : SameQueue (s.withLevels L) s := ⟨rfl, rfl, rfl⟩
  obtain ⟨_, hevents, hlost⟩ := hqueue.postEvent e
  rw [postEvent_eq, postEvent_eq s, ← hevents, ← hlost]
  rfl

theorem withLevels_finishStop (L : LevelTable) (s : State) (g : Gen) (cause : StopCause) :
    (s.withLevels L).finishStop g cause = (s.finishStop g cause).withLevels L := by
  have hgone : (s.withLevels L).orderGone g = (s.orderGone g).withLevels L := by
    change (if (s.desk g).order.isSome then (s.dropOrder g).withLevels L else s.withLevels L) = _
    unfold State.orderGone
    split <;> rfl
  rw [finishStop_eq, finishStop_eq, hgone]
  simp only
  generalize s.orderGone g = u
  have hposted : ((((u.withLevels L).emptyMemory g).setDesk g (((u.withLevels L).desk g).halted cause)).postStopped g cause) =
      (((u.emptyMemory g).setDesk g ((u.desk g).halted cause)).postStopped g cause).withLevels L :=
    withLevels_postEvent L ((u.emptyMemory g).setDesk g ((u.desk g).halted cause)) _
  rw [hposted]
  change (if ((s.desk g).order.isSome && s.dropEnds g) = true then _ else _) = _
  split
  · exact withLevels_postEvent L _ _
  · rfl

theorem blind_stopGen (g : Gen) (cause : StopCause) : Blind (stopGen g cause) := fun s t L h =>
  ((blind_releaseOrder g (decide (cause = .disable))).andThen
    (blind_update (f := fun s => s.finishStop g cause) fun s L => withLevels_finishStop L s g cause))
    (s.setDesk g { s.desk g with state := .stopped }) t L h

theorem withLevels_restartGen {s : State} (hs : s.Sound) (L : LevelTable) (g : Gen) :
    restartGen (s.withLevels L) g = (restartGen s g).withLevels L := by
  unfold restartGen
  rw [show (s.withLevels L).desk g = s.desk g from rfl]
  split
  · rfl
  · rfl
  · exact withLevels_postEvent L (s.setDesk g { s.desk g with hold := some Config.stopHold, holdEnd := .absent }) _
  · obtain ⟨s1, _, _, hstop, _⟩ := stopGen_of_sound hs g .restart
    rw [hstop, blind_stopGen g .restart s _ L hstop]
    rfl

theorem sound_restartGen {s : State} (hs : s.Sound) (g : Gen) : (restartGen s g).Sound := by
  obtain ⟨f, hf, e⟩ := serves_restartGen s g
  obtain ⟨t, rfl, _, ht⟩ := hf.completes hs
  rw [e]
  exact ht

theorem withLevels_restartGens (L : LevelTable) : ∀ (l : List Gen) {s : State}, s.Sound →
    l.foldl restartGen (s.withLevels L) = (l.foldl restartGen s).withLevels L
  | [], _, _ => rfl
  | g :: rest, s, hs => by
    rw [List.foldl_cons, withLevels_restartGen hs, withLevels_restartGens L rest (sound_restartGen hs g)]
    rfl

/-- RESTART leaves the level table as it is, and does the rest whatever it holds. -/
theorem restart_withLevels {s : State} (h : s.levels.codeOk = true) (L : LevelTable) :
    restart (s.withLevels L) = (restart s).withLevels L := by
  unfold restart
  rw [show (s.withLevels L).unchecked = s.unchecked.withLevels L from rfl, withLevels_restartGens L allGens (sound_unchecked h)]
  rfl

end Sys2Proof.Machine

/-! PROOFS. What RESTART leaves, record by record (R12, R17, R174, R175). -/

namespace Sys2Proof.Machine

/-! ## One release -/

theorem followed_congr {s t : State} (h : ∀ n, (t.pan n).tag = (s.pan n).tag ∧ (t.pan n).plan = (s.pan n).plan) (c : CoilNo) (r : Coil) :
    t.followed c r = s.followed c r := by
  unfold State.followed
  split
  · next o _ => rw [(h o.slot).1, (h o.slot).2]
  · rfl

theorem released_congr {s t : State} {g : Gen} {c : CoilNo} (hc : t.coil c = s.coil c)
    (h : ∀ n, (t.pan n).tag = (s.pan n).tag ∧ (t.pan n).plan = (s.pan n).plan) : t.released g false c = s.released g false c := by
  simp only [State.released, hc, followed_congr h]

/-- The coil is in the order of the generator that drives it. -/
def State.ordered (s : State) (c : CoilNo) : Prop :=
  ∃ o, (s.desk (s.driverGen c)).order = some o ∧ (s.coil c).state.order = some o.number

/-- A release with every code valid: the coils of the order, and the pans that keep their tags and plans. -/
theorem releaseOrder_coils {s : State} (hs : s.Sound) (g : Gen) : ∃ t, releaseOrder g false s = .ok t ∧
    (∀ c, (s.driverGen c = g ∧ s.ordered c → t.coil c = s.released g false c) ∧
      (¬ (s.driverGen c = g ∧ s.ordered c) → t.coil c = s.coil c)) ∧
    ∀ n, (t.pan n).tag = (s.pan n).tag ∧ (t.pan n).plan = (s.pan n).plan := by
  rw [releaseOrder_of_sound hs]
  cases ho : (s.desk g).order with
  | none =>
    have hcount : countEnergy g s = .ok s := by simp [countEnergy, ho]
    refine ⟨s, by rw [hcount, Flow.ok_andThen, releaseCoils, ho], fun c => ⟨fun hc => ?_, fun _ => rfl⟩, fun n => ⟨rfl, rfl⟩⟩
    obtain ⟨rfl, o, hsome, _⟩ := hc
    exact nomatch ho.symm.trans hsome
  | some o =>
    obtain ⟨x, hx, hcount, hcoil, hdesk, hpan⟩ : ∃ x : State, x.Sound ∧ countEnergy g s = .ok x ∧ (∀ c, x.coil c = s.coil c) ∧
        (∀ h, x.desk h = s.desk h) ∧ ∀ n, (x.pan n).tag = (s.pan n).tag ∧ (x.pan n).plan = (s.pan n).plan := by
      cases hi : o.state with
      | built => exact ⟨s, hs, countEnergy_built ho hi, fun _ => rfl, fun _ => rfl, fun _ => ⟨rfl, rfl⟩⟩
      | issued i =>
        have hcount := countEnergy_issued hs ho hi
        refine ⟨_, ?_, hcount, fun c => coil_withPans s _ c, fun h => desk_withPans s _ h, fun n => ?_⟩
        · exact sound_withPans hs fun n => hs.pans n
        · rw [pan_withPans]
          exact ⟨rfl, rfl⟩
    have hox : (x.desk g).order = some o := hdesk g ▸ ho
    refine ⟨_, by rw [hcount, Flow.ok_andThen, releaseCoils_eq_of_sound hx hox], fun c => ?_, fun n => ?_⟩
    · have hreleased : x.released g false c = s.released g false c := released_congr (hcoil c) hpan
      have hmem : c ∈ x.orderCoils g o.number ↔ s.driverGen c = g ∧ s.ordered c := by
        rw [mem_orderCoils, State.driverGen, hcoil, ← State.driverGen, and_comm]
        refine and_congr_right fun hg => ⟨fun h => ⟨o, hg ▸ ho, h⟩, fun ⟨o', ho', h⟩ => ?_⟩
        rw [hg, ho] at ho'
        exact Option.some.inj ho' ▸ h
      rw [coil_withCoils, hreleased, hcoil]
      exact ⟨fun h => if_pos (hmem.mpr h), fun h => if_neg (mt hmem.mp h)⟩
    · rw [pan_withCoils]
      exact hpan n

theorem order_released {s : State} {g : Gen} {c : CoilNo} (h : s.ordered c) : (s.released g false c).state.order = none := by
  obtain ⟨o, _, ho⟩ := h
  have hclaimed : ∀ p, (s.reclaimed g false c p).state.order = none := fun p => by
    simp only [State.reclaimed, Bool.false_eq_true, false_and, if_false, State.followed]
    repeat' split
    all_goals first | rfl | (unfold relayTo; split <;> rfl)
  cases hst : (s.coil c).state with
  | driven p n => rw [released_driven hst]; exact hclaimed p
  | transfer p n d =>
    by_cases hd : d = (s.coil c).driver
    · rw [released_eq_reclaimed (p := p) fun b => by simp [Coil.leaveOrder, hst, hd]]
      exact hclaimed p
    · rw [released_transfer hst hd]
      rfl
  | releasing p n off =>
    cases off with
    | true => rw [released_releasing_off hst]; rfl
    | false =>
      cases p with
      | none => rw [released_releasing_free hst]; rfl
      | some p => rw [released_releasing_owned hst]; exact hclaimed p
  | _ =>
    rw [hst] at ho
    cases ho

/-! ## The generators in turn -/

/-- A desk after RESTART. -/
def Desk.restarted (d : Desk) : Desk :=
  match d.state with
  | .absent => d
  | .disabled => d
  | .stopped => { d with hold := some 250, holdEnd := .absent }
  | _ => { d with
      state := .stopped, desk := .empty, repeats := 0, order := none, lease := none, yield := none, collection := none
      hold := some 250, holdEnd := .absent }

/-- RESTART releases the coil from its order. -/
def State.restarts (s : State) (c : CoilNo) : Prop := (s.desk (s.driverGen c)).state.inService = true ∧ s.ordered c

/-- What RESTART's work on these generators leaves. -/
structure Restarting (l : List Gen) (s t : State) : Prop where
  sound : t.Sound
  released : ∀ c, s.driverGen c ∈ l ∧ s.restarts c → t.coil c = s.released (s.driverGen c) false c
  kept : ∀ c, ¬ (s.driverGen c ∈ l ∧ s.restarts c) → t.coil c = s.coil c
  pan : ∀ n, (t.pan n).tag = (s.pan n).tag ∧ (t.pan n).plan = (s.pan n).plan
  desk : ∀ g, t.desk g = if g ∈ l then (s.desk g).restarted else s.desk g
  number : ∀ g, (t.alloc g).lastNumber = (s.alloc g).lastNumber
  ports : t.ports = s.ports
  unmoved : Unmoved s t

theorem restarting_nil {s : State} (hs : s.Sound) : Restarting [] s s where
  sound := hs
  released _ h := nomatch h.1
  kept _ _ := rfl
  pan _ := ⟨rfl, rfl⟩
  desk _ := rfl
  number _ := rfl
  ports := rfl
  unmoved := .refl s

/-- A generator that is not in service has no coil released. -/
theorem Restarting.idle {l : List Gen} {s t u : State} {g : Gen} (h : Restarting l s t)
    (hout : (s.desk g).state.inService = false) (hu : u.Sound) (hcoils : u.coils = t.coils) (hpans : u.pans = t.pans)
    (hdesk : ∀ k, u.desk k = if k = g then (s.desk g).restarted else t.desk k) (hallocs : u.allocs = t.allocs) (hports : u.ports = t.ports)
    (hunmoved : Unmoved t u) : Restarting (g :: l) s u := by
  have hcoil : ∀ c, u.coil c = t.coil c := fun c => by simp only [State.coil, hcoils]
  have hiff : ∀ c, s.driverGen c ∈ g :: l ∧ s.restarts c ↔ s.driverGen c ∈ l ∧ s.restarts c := fun c => by
    rw [List.mem_cons]
    refine and_congr_left fun hr => or_iff_right fun he => ?_
    rw [State.restarts, he, hout] at hr
    exact nomatch hr.1
  refine ⟨hu, fun c hc => (hcoil c).trans (h.released c ((hiff c).mp hc)), fun c hc => (hcoil c).trans (h.kept c (mt (hiff c).mpr hc)),
    fun n => ?_, fun k => ?_, fun k => ?_, hports.trans h.ports, h.unmoved.trans hunmoved⟩
  · rw [show u.pan n = t.pan n by simp only [State.pan, hpans]]
    exact h.pan n
  · rw [hdesk, h.desk]
    by_cases hk : k = g
    · rw [if_pos hk, if_pos (hk ▸ List.mem_cons_self), hk]
    · simp [hk]
  · rw [show u.alloc k = t.alloc k by simp only [State.alloc, hallocs]]
    exact h.number k

theorem restarted_inService {d : Desk} (h : d.state.inService = true) : d.restarted = { d with
    state := .stopped, desk := .empty, repeats := 0, order := none, lease := none, yield := none, collection := none
    hold := some 250, holdEnd := .absent } := by
  unfold Desk.restarted
  split
  · next hs => rw [hs] at h; cases h
  · next hs => rw [hs] at h; cases h
  · next hs => rw [hs] at h; cases h
  · rfl

/-- A generator in service is stopped, and its order released. -/
theorem Restarting.stop {l : List Gen} {s t : State} {g : Gen} (h : Restarting l s t) (hg : g ∉ l)
    (hin : (s.desk g).state.inService = true) : ∃ u, stopGen g .restart t = .ok u ∧ Restarting (g :: l) s u := by
  obtain ⟨s1, h1, hrecords, hstop, hsound⟩ := stopGen_of_sound h.sound g .restart
  obtain ⟨s1', h1', hcoils, hpans⟩ := releaseOrder_coils (sound_setDesk h.sound g (d := { t.desk g with state := .stopped })
    (h.sound.orders g)) g
  cases Flow.ok.inj (h1.symm.trans h1')
  have hkeeps := finishStop_keeps s1 g .restart
  have hcoil : ∀ c, (s1.finishStop g .restart).coil c = s1.coil c := fun c => by simp only [State.coil, hkeeps.coils]
  have hdeskg : t.desk g = s.desk g := by rw [h.desk, if_neg hg]
  have hordered : ∀ c, ((t.setDesk g { t.desk g with state := .stopped }).driverGen c = g ∧
      (t.setDesk g { t.desk g with state := .stopped }).ordered c) ↔
        t.driverGen c = g ∧ ∃ o, (s.desk g).order = some o ∧ (t.coil c).state.order = some o.number := fun c => by
    refine and_congr_right fun hc => ?_
    rw [State.ordered, hc, State.desk_setDesk_self, hdeskg]
    rfl
  obtain ⟨t', ht', hpath, _⟩ := (serves_stopGen g .restart t).completes h.sound
  cases Flow.ok.inj (ht'.symm.trans hstop)
  refine ⟨_, hstop, hsound, fun c hc => ?_, fun c hc => ?_, fun n => ?_, fun k => ?_, fun k => ?_, ?_, h.unmoved.trans hpath.unmoved⟩
  · rw [hcoil]
    by_cases hl : s.driverGen c ∈ l
    · rw [← h.released c ⟨hl, hc.2⟩]
      refine (hcoils c).2 fun hx => ?_
      obtain ⟨_, o, _, ho⟩ := (hordered c).mp hx
      rw [h.released c ⟨hl, hc.2⟩, order_released hc.2.2] at ho
      cases ho
    · have hsame := h.kept c fun hx => hl hx.1
      have hdriver : s.driverGen c = g := (List.mem_cons.mp hc.1).resolve_right hl
      obtain ⟨o, ho, hn⟩ := hc.2.2
      rw [(hcoils c).1 ((hordered c).mpr ⟨by rw [State.driverGen, hsame]; exact hdriver, o, hdriver ▸ ho, hsame ▸ hn⟩), hdriver]
      exact (released_congr (t := t.setDesk g { t.desk g with state := .stopped }) (s := t) rfl fun _ => ⟨rfl, rfl⟩).trans
        (released_congr hsame h.pan)
  · have hsame := h.kept c fun hx => hc ⟨List.mem_cons_of_mem _ hx.1, hx.2⟩
    rw [hcoil, ← hsame]
    refine (hcoils c).2 fun hx => hc ?_
    obtain ⟨hdriver, o, ho, hn⟩ := (hordered c).mp hx
    rw [State.driverGen, hsame, ← State.driverGen] at hdriver
    rw [hsame] at hn
    exact ⟨hdriver ▸ List.mem_cons_self, hdriver ▸ hin, o, hdriver ▸ ho, hn⟩
  · rw [show (s1.finishStop g .restart).pan n = s1.pan n by simp only [State.pan, hkeeps.pans]]
    exact ⟨(hpans n).1.trans (h.pan n).1, (hpans n).2.trans (h.pan n).2⟩
  · by_cases hk : k = g
    · subst hk
      rw [desk_stopped hrecords, if_pos List.mem_cons_self, restarted_inService hin, hdeskg]
      rfl
    · rw [(others_stopped hrecords hk).1, h.desk]
      simp [hk]
  · by_cases hk : k = g
    · subst hk
      rw [alloc_stopped hrecords]
      exact h.number k
    · rw [(others_stopped hrecords hk).2, h.number]
  · rw [hkeeps.ports, hrecords.keeps State.ports rfl]
    exact h.ports

theorem restarted_stopped {d : Desk} (h : d.state = .stopped) : d.restarted = { d with hold := some 250, holdEnd := .absent } := by
  cases d
  cases h
  rfl

theorem restarting_gens : ∀ (l done : List Gen), (done ++ l).Nodup → ∀ {s t : State}, Restarting done s t →
    ∃ done', (∀ g, g ∈ done' ↔ g ∈ done ++ l) ∧ Restarting done' s (l.foldl restartGen t)
  | [], done, _, _, _, h => ⟨done, fun g => by rw [List.append_nil], h⟩
  | g :: rest, done, hd, s, t, h => by
    have hg : g ∉ done := fun hm => (List.nodup_append.mp hd).2.2 g hm g List.mem_cons_self rfl
    have hdeskg : t.desk g = s.desk g := by rw [h.desk, if_neg hg]
    have hstep : Restarting (g :: done) s (restartGen t g) := by
      have hleft : (s.desk g).state.inService = false → (s.desk g).restarted = s.desk g → Restarting (g :: done) s t := fun hout hr =>
        h.idle hout h.sound rfl rfl (fun k => by
          split
          · next hk => rw [hk, hr, hdeskg]
          · rfl) rfl rfl (.refl t)
      unfold restartGen
      rw [hdeskg]
      cases hst : (s.desk g).state with
      | absent => exact hleft (by rw [hst]; rfl) (by rw [Desk.restarted, hst])
      | disabled => exact hleft (by rw [hst]; rfl) (by rw [Desk.restarted, hst])
      | stopped =>
        change Restarting (g :: done) s
          ((t.setDesk g { s.desk g with hold := some Config.stopHold, holdEnd := .absent }).postStopped g .restart)
        have hpath := (serves_setDesk g { s.desk g with hold := some Config.stopHold, holdEnd := .absent } t (by rw [hdeskg])).snoc
          (.post _ { State.event (t.setDesk g { s.desk g with hold := some Config.stopHold, holdEnd := .absent }) .generatorStopped with
            gen := some g, cause := some (.stop .restart) })
        refine h.idle (by rw [hst]; rfl) (hpath.sound h.sound) (State.coils_postEvent _ _) (State.pans_postEvent _ _) (fun k => ?_)
          (State.allocs_postEvent _ _) (State.ports_postEvent _ _) hpath.unmoved
        rw [State.postStopped, State.desk_postEvent, State.desk_setDesk, restarted_stopped hst]
        rfl
      | joined | ordered | yielding =>
        obtain ⟨u, hu, hrestarting⟩ := h.stop hg (by rw [hst]; rfl)
        simp only [hu]
        exact hrestarting
    obtain ⟨done', hmem, hrest⟩ := restarting_gens rest (g :: done) (by simpa using (List.perm_middle.nodup_iff.mp hd)) hstep
    exact ⟨done', fun k => by rw [hmem]; simp [or_left_comm], hrest⟩

end Sys2Proof.Machine

/-! PROOFS. The state that RESTART leaves (R12, R17, R174, R175). -/

namespace Sys2Proof.Machine

/-! ## What is left of a relay's return -/

/-- The pan's plan calls for the coil's alternate generator. -/
def State.Follows (s : State) (c : CoilNo) (p : PanId) : Prop :=
  hasRelay c = true ∧ (s.pan p.slot).tag = p.tag ∧ ∃ plan, (s.pan p.slot).plan = some plan ∧ plannedPosition c plan = .alternate

/-- The release of a coil at home from its order starts it toward its alternate (R10). -/
def State.StartsOut (s : State) (c : CoilNo) : Prop :=
  match (s.coil c).state with
  | .driven p _ => s.Follows c p
  | .releasing (some p) _ false => s.Follows c p
  | .transfer p _ d => d = .alternate ∨ s.Follows c p
  | _ => False

theorem rest_switching (r : Coil) (d : Position) (o : Option PanId) :
    ({ r with driver := d, state := .switching o 15 } : Coil).restRemaining = some 15 := by
  cases d <;> rfl

/-- A coil that stands still has 15 ms left at its alternate, and none at home. -/
theorem rest_still {r : Coil} (hs : ∀ o left, r.state ≠ .switching o left) (ho : r.state.isOff = false) :
    r.restRemaining = if r.driver = .alternate then some 15 else none := by
  unfold Coil.restRemaining
  cases r.driver with
  | alternate => rfl
  | home =>
    cases hst : r.state with
    | switching o left => exact absurd hst (hs o left)
    | off m =>
      rw [hst] at ho
      cases ho
    | _ => rfl

theorem ne_alternate {p : Position} : p ≠ .alternate ↔ p = .home := by cases p <;> simp

/-- A coil that a release leaves CLAIMED starts out from home where its pan's plan calls for it. -/
theorem rest_reclaimed (s : State) (g : Gen) (c : CoilNo) (p : PanId) :
    ((s.coil c).driver = .home → s.Follows c p → (s.reclaimed g false c p).restRemaining = some 15) ∧
    (((s.coil c).driver = .home → ¬ s.Follows c p) →
      (s.reclaimed g false c p).restRemaining = if (s.coil c).driver = .alternate then some 15 else none) := by
  have hreclaimed : s.reclaimed g false c p = s.followed c { s.coil c with state := .claimed p } := by
    simp [State.reclaimed]
  have hstill : ({ s.coil c with state := .claimed p } : Coil).restRemaining =
      if (s.coil c).driver = .alternate then some 15 else none := rest_still (fun _ _ => nofun) rfl
  rw [hreclaimed]
  cases hplan : (s.pan p.slot).plan with
  | none =>
    rw [followed_planless hplan, hstill]
    exact ⟨fun _ ⟨_, _, plan, h, _⟩ => (nomatch hplan.symm.trans h), fun _ => rfl⟩
  | some plan =>
    rw [followed_planned hplan]
    split
    · next hmoves =>
      obtain ⟨htag, hrelay, hdriver⟩ := hmoves
      rw [rest_switching]
      refine ⟨fun _ _ => rfl, fun h => ?_⟩
      by_cases hd : (s.coil c).driver = .alternate
      · rw [if_pos hd]
      · rw [ne_alternate.mp hd] at hdriver
        exact absurd ⟨hrelay, htag, plan, hplan, by_contra fun hp => hdriver (ne_alternate.mp hp).symm⟩ (h (ne_alternate.mp hd))
    · next hstays =>
      rw [hstill]
      refine ⟨fun hd ⟨hrelay, htag, plan', hplan', hp⟩ => absurd ⟨htag, hrelay, ?_⟩ hstays, fun _ => rfl⟩
      rw [Option.some.inj (hplan.symm.trans hplan'), hd, hp]
      nofun

/-- What is left of a coil's return to rest once its order is released. -/
theorem rest_released {s : State} {g : Gen} {c : CoilNo} (h : s.ordered c) :
    ((s.coil c).driver = .home → s.StartsOut c → (s.released g false c).restRemaining = some 15) ∧
    (((s.coil c).driver = .home → ¬ s.StartsOut c) → (s.released g false c).restRemaining = returnLeft (s.coil c)) := by
  have hleft : (∀ o left, (s.coil c).state ≠ .switching o left) → (s.coil c).state.isOff = false →
      returnLeft (s.coil c) = if (s.coil c).driver = .alternate then some 15 else none := fun hs ho => by
    rw [← restRemaining_eq, rest_still hs ho]
  obtain ⟨o, _, ho⟩ := h
  unfold State.StartsOut
  cases hst : (s.coil c).state with
  | driven p n =>
    rw [released_driven hst, hleft (by rw [hst]; nofun) (by rw [hst]; rfl)]
    exact rest_reclaimed s g c p
  | transfer p n d =>
    rw [hleft (by rw [hst]; nofun) (by rw [hst]; rfl)]
    simp only
    by_cases hd : d = (s.coil c).driver
    · rw [released_eq_reclaimed (p := p) fun b => by simp [Coil.leaveOrder, hst, hd]]
      obtain ⟨hstarts, hstays⟩ := rest_reclaimed s g c p
      refine ⟨fun hhome hs => hstarts hhome (hs.resolve_left fun he => ?_), fun hn => hstays fun hhome hf => hn hhome (.inr hf)⟩
      rw [hd, hhome] at he
      cases he
    · rw [released_transfer hst hd, if_neg (by simp), rest_switching]
      refine ⟨fun _ _ => rfl, fun hn => ?_⟩
      by_cases ha : (s.coil c).driver = .alternate
      · rw [if_pos ha]
      · have hhome := ne_alternate.mp ha
        exact absurd (.inl (by_contra fun he => hd ((ne_alternate.mp he).trans hhome.symm))) (hn hhome)
  | releasing p n off =>
    rw [hleft (by rw [hst]; nofun) (by rw [hst]; rfl)]
    cases off with
    | true =>
      rw [released_releasing_off hst]
      refine ⟨fun _ hs => ?_, fun _ => rfl⟩
      cases p <;> exact hs.elim
    | false =>
      cases p with
      | none =>
        rw [released_releasing_free hst, rest_still (r := { s.coil c with state := .free }) (fun _ _ => nofun) rfl]
        exact ⟨fun _ hs => hs.elim, fun _ => rfl⟩
      | some p =>
        rw [released_releasing_owned hst]
        exact rest_reclaimed s g c p
  | _ =>
    rw [hst] at ho
    cases ho

theorem released_reading (s : State) (g : Gen) (c : CoilNo) :
    (s.released g false c).hot = (s.coil c).hot ∧ (s.released g false c).fault = (s.coil c).fault := by
  have hrelay : ∀ p r, (relayTo c p r).hot = r.hot ∧ (relayTo c p r).fault = r.fault := fun p r => by
    unfold relayTo
    repeat' split
    all_goals exact ⟨rfl, rfl⟩
  have hfollowed : ∀ r, (s.followed c r).hot = r.hot ∧ (s.followed c r).fault = r.fault := fun r => by
    unfold State.followed
    repeat' split
    all_goals first | exact hrelay _ _ | exact ⟨rfl, rfl⟩
  have hleave : ((s.coil c).leaveOrder false).hot = (s.coil c).hot ∧ ((s.coil c).leaveOrder false).fault = (s.coil c).fault := by
    unfold Coil.leaveOrder
    repeat' split
    all_goals exact ⟨rfl, rfl⟩
  obtain ⟨hhot, hfault⟩ := hfollowed ((s.coil c).leaveOrder false)
  exact ⟨hhot.trans hleave.1, hfault.trans hleave.2⟩

/-! ## The records written afresh -/

/-- RESTART's work on the generators, with the level table in order. -/
theorem restarting_unchecked {s : State} (h : s.levels.codeOk = true) :
    ∃ done, (∀ g, g ∈ done) ∧ Restarting done s.unchecked (allGens.foldl restartGen s.unchecked) := by
  obtain ⟨done, hmem, hrest⟩ := restarting_gens allGens [] nodup_allGens (restarting_nil (sound_unchecked h))
  exact ⟨done, fun g => (hmem g).mpr (mem_allGens g), hrest⟩

section
variable (s : State)

theorem coil_unchecked (c : CoilNo) : s.unchecked.coil c = { s.coil c with codeOk := true } := by simp [State.coil, State.unchecked]

theorem pan_unchecked (n : Slot) : s.unchecked.pan n = { s.pan n with codeOk := true } := by simp [State.pan, State.unchecked]

theorem desk_unchecked (g : Gen) :
    s.unchecked.desk g = { s.desk g with order := (s.desk g).order.map fun o => { o with codeOk := true } } := by
  simp [State.desk, State.unchecked]

theorem account_unchecked (p : Phase) : s.unchecked.account p = { s.account p with shed := none } := by
  simp [State.account, State.unchecked]

theorem startsOut_unchecked (c : CoilNo) : s.unchecked.StartsOut c ↔ s.StartsOut c := by
  have hfollows : ∀ p, s.unchecked.Follows c p ↔ s.Follows c p := fun p => by
    unfold State.Follows
    rw [pan_unchecked]
  unfold State.StartsOut
  rw [coil_unchecked]
  simp only
  split <;> simp only [hfollows]

/-- The coil is in the order that RESTART releases. -/
theorem restarts_unchecked (c : CoilNo) : s.unchecked.restarts c ↔ (s.desk (s.driverGen c)).state.inService = true ∧
    ∃ o, (s.desk (s.driverGen c)).order = some o ∧ (s.coil c).state.order = some o.number := by
  have hdriver : s.unchecked.driverGen c = s.driverGen c := by rw [State.driverGen, coil_unchecked]; rfl
  unfold State.restarts State.ordered
  rw [hdriver, desk_unchecked, coil_unchecked]
  refine and_congr_right fun _ => ⟨fun ⟨o, ho, hn⟩ => ?_, fun ⟨o, ho, hn⟩ => ⟨{ o with codeOk := true }, by rw [ho]; rfl, hn⟩⟩
  obtain ⟨o', ho', rfl⟩ := Option.map_eq_some_iff.mp ho
  exact ⟨o', ho', hn⟩

end

/-- The state as it is but for its level table, which is in order. -/
def State.withTable (s : State) : State := s.withLevels { s.levels with codeOk := true }

theorem restart_table (s : State) : restart s = (restart s.withTable).withLevels s.levels :=
  restart_withLevels (s := s.withTable) rfl s.levels

/-- RESTART's last steps, with this level table. -/
def State.rewritten (s : State) (L : LevelTable) : State :=
  { s.cleared with
    levels := L, safe := false, marks := TableMarks.clear, events := [], eventsLost := false
    ports := s.ports.map fun p => { p with overrun := false, forcedBad := false } }

theorem restart_eq (s : State) : restart s = (allGens.foldl restartGen s.withTable.unchecked).rewritten s.levels := by
  rw [restart_table]
  unfold restart
  generalize allGens.foldl restartGen s.withTable.unchecked = t
  rfl

section
variable (s : State) (L : LevelTable)

theorem coil_rewritten (c : CoilNo) : (s.rewritten L).coil c = (s.coil c).cleared := coil_cleared s c

theorem pan_rewritten (n : Slot) : (s.rewritten L).pan n = Pan.freed (s.pan n).tag := by
  simp [State.pan, State.rewritten, State.cleared]

theorem account_rewritten (p : Phase) : (s.rewritten L).account p = (s.account p).settled := by
  simp [State.account, State.rewritten, State.cleared]

theorem alloc_rewritten (g : Gen) : (s.rewritten L).alloc g = ⟨(s.alloc g).lastNumber, []⟩ := by
  simp [State.alloc, State.rewritten, State.cleared]

theorem desk_rewritten (g : Gen) : (s.rewritten L).desk g = s.desk g := rfl

theorem partSecond_rewritten (n : Slot) : (s.rewritten L).partSecond n = 0 := by
  simp [State.partSecond, State.rewritten, State.cleared]

theorem port_rewritten (l : Link) : (s.rewritten L).port l = ⟨(s.port l).rx, false, false⟩ := by
  simp [State.port, State.rewritten, State.cleared]

end

/-- A coil after RESTART. -/
theorem coil_restarted {s t : State} {done : List Gen} (hall : ∀ g, g ∈ done) (h : Restarting done s.unchecked t) (c : CoilNo) :
    ∃ m, (t.coil c).cleared = ⟨.home, none, (s.coil c).hot, (s.coil c).fault, .off m, true⟩ ∧
      ((s.coil c).driver = .home → s.unchecked.restarts c ∧ s.StartsOut c → m = some 15) ∧
      (((s.coil c).driver = .home → ¬ (s.unchecked.restarts c ∧ s.StartsOut c)) → m = returnLeft (s.coil c)) := by
  have hcoil := coil_unchecked s c
  have hdriver : (s.unchecked.coil c).driver = (s.coil c).driver := by rw [hcoil]
  by_cases hr : s.unchecked.restarts c
  · have hreleased := h.released c ⟨hall _, hr⟩
    obtain ⟨hhot, hfault⟩ := released_reading s.unchecked (s.unchecked.driverGen c) c
    obtain ⟨hstarts, hstays⟩ := rest_released (g := s.unchecked.driverGen c) hr.2
    rw [hdriver, startsOut_unchecked] at hstarts hstays
    refine ⟨(t.coil c).restRemaining, ?_, fun hd hs => ?_, fun hn => ?_⟩
    · rw [Coil.cleared, Coil.toOff, Coil.atRest, hreleased, hhot, hfault, hcoil]
    · rw [hreleased]
      exact hstarts hd hs.2
    · rw [hreleased, hstays fun hd hs => hn hd ⟨hr, hs⟩, hcoil]
      rfl
  · refine ⟨(t.coil c).restRemaining, ?_, fun _ hs => absurd hs.1 hr, fun _ => ?_⟩
    · rw [Coil.cleared, Coil.toOff, Coil.atRest, h.kept c fun hc => hr hc.2, hcoil]
    · rw [h.kept c fun hc => hr hc.2, restRemaining_eq, hcoil]
      rfl

/-- Settles O26: RESTART releases the orders in service, writes every record afresh, and leaves the rest as it was. -/
theorem restartLeaves : Obligations.RestartLeaves := by
  unfold Obligations.RestartLeaves
  intro s hl
  obtain ⟨t, ht, ha⟩ := exec_answered (k := .restart) hl rfl rfl (fun _ => rfl) (show serve .restart .pl [] s = (restart s, .done []) from rfl)
  obtain ⟨done, hall, h⟩ := restarting_unchecked (s := s.withTable) rfl
  have hu := restart_eq s
  generalize allGens.foldl restartGen s.withTable.unchecked = v at h hu
  rw [hu] at ha
  have hdesk : ∀ g, v.desk g = ({ s.desk g with order := (s.desk g).order.map fun o => { o with codeOk := true } } : Desk).restarted := fun g => by
    rw [h.desk, if_pos (hall g), desk_unchecked]
    rfl
  have hnone : ∀ g, (∀ o, (s.desk g).order ≠ some o) → v.desk g = (s.desk g).restarted := fun g hg => by
    have hempty := Option.eq_none_iff_forall_ne_some.mpr hg
    rw [hdesk, show ({ s.desk g with order := (s.desk g).order.map fun o => { o with codeOk := true } } : Desk) = s.desk g by
      rw [hempty, Option.map_none, ← hempty]]
  have hm := h.unmoved
  refine ⟨v.rewritten s.levels, t, ht, ha, ?_, rfl, rfl, rfl, fun c => ?_, fun n => ⟨?_, partSecond_rewritten v _ n⟩, rfl, rfl, fun p => ?_,
    fun g hout hg => ?_, fun g hst hg => ?_, fun g hin => ?_, fun g => ?_, rfl, rfl, hm.windows, hm.params, hm.phaseOf, rfl, fun l => ?_,
    hm.now, hm.rate, hm.pending⟩
  · rw [State.linkFlags, port_rewritten, show (v.rewritten s.levels).safe = false from rfl, show (v.rewritten s.levels).events = [] from rfl]
    simp
  · obtain ⟨m, hm, hstarts, hstays⟩ := coil_restarted hall h c
    have hreleased : (s.coil c).driver = .home → (s.withTable.unchecked.restarts c ↔ (s.desk (homeGen c)).state.inService = true ∧
        ∃ o, (s.desk (homeGen c)).order = some o ∧ (s.coil c).state.order = some o.number) := fun hd => by
      have hhome : s.withTable.driverGen c = homeGen c := congrArg (driverAt c) hd
      rw [restarts_unchecked, hhome]
      exact .rfl
    exact ⟨m, (coil_rewritten v _ c).trans hm, fun hd hs => hstarts hd ⟨(hreleased hd).mpr hs.1, hs.2⟩,
      fun hn => hstays fun hd hs => hn hd ⟨(hreleased hd).mp hs.1, hs.2⟩⟩
  · rw [pan_rewritten, (h.pan n).1, pan_unchecked]
    rfl
  · rw [account_rewritten, Account.settled, hm.target p, account_unchecked]
    rfl
  · rw [desk_rewritten, hnone g hg, Desk.restarted]
    rcases hout with hst | hst <;> rw [hst]
  · rw [desk_rewritten, hnone g hg, restarted_stopped hst]
  · rw [desk_rewritten, hdesk, restarted_inService (by exact hin)]
  · rw [alloc_rewritten, h.number]
    rfl
  · rw [port_rewritten, State.port, h.ports]
    rfl

end Sys2Proof.Machine

/-! PROOFS. What a build chooses, fits and writes (R125 to R137). -/

namespace Sys2Proof.Machine

/-! ## The best of a list -/

section
variable {α : Type} {before : α → α → Bool}

theorem bestBy_eq_none_iff {l : List α} : bestBy before l = none ↔ l = [] := by
  cases l with
  | nil => exact iff_of_true rfl rfl
  | cons x xs =>
    refine iff_of_false (fun h => ?_) (List.cons_ne_nil x xs)
    unfold bestBy at h
    repeat' split at h
    all_goals cases h

/-- Where the order is total on the list, the best comes before every other. -/
theorem bestBy_best (htrans : ∀ a b c, before a b = true → before b c = true → before a c = true) : ∀ {l : List α} {x : α},
    (∀ a ∈ l, ∀ b ∈ l, a ≠ b → before a b = true ∨ before b a = true) → bestBy before l = some x →
    ∀ z ∈ l, z ≠ x → before x z = true
  | y :: ys, x, htotal, h, z, hz, hne => by
    have htail : ∀ a ∈ ys, ∀ b ∈ ys, a ≠ b → before a b = true ∨ before b a = true := fun a ha b hb =>
      htotal a (List.mem_cons_of_mem _ ha) b (List.mem_cons_of_mem _ hb)
    unfold bestBy at h
    split at h
    · next hnone =>
      rw [bestBy_eq_none_iff.mp hnone, List.mem_singleton] at hz
      exact absurd (hz.trans (Option.some.inj h)) hne
    · next w hw =>
      have hbest := bestBy_best htrans htail hw
      split at h
      · next hwy =>
        cases Option.some.inj h
        rcases List.mem_cons.mp hz with rfl | hz
        · exact hwy
        · exact hbest z hz hne
      · next hyw =>
        cases Option.some.inj h
        have hz := (List.mem_cons.mp hz).resolve_left hne
        by_cases hzw : z = w
        · rw [hzw] at hne ⊢
          exact (htotal y List.mem_cons_self w (List.mem_cons_of_mem _ (bestBy_mem hw)) hne.symm).resolve_right hyw
        · by_cases hyeq : y = w
          · rw [hyeq]
            exact hbest z hz hzw
          · exact htrans y w z ((htotal y List.mem_cons_self w (List.mem_cons_of_mem _ (bestBy_mem hw)) hyeq).resolve_right hyw)
              (hbest z hz hzw)

end

/-! ## The choice (R127) -/

theorem ranksBefore_iff (s : State) (a b : Slot) : s.ranksBefore a b = true ↔ (s.pan b).debt < (s.pan a).debt ∨
    ((s.pan a).debt = (s.pan b).debt ∧ s.priority.idxOf a < s.priority.idxOf b) := decide_eq_true_iff

theorem ranksBefore_trans (s : State) (a b c : Slot) (hab : s.ranksBefore a b = true) (hbc : s.ranksBefore b c = true) :
    s.ranksBefore a c = true := by
  rw [ranksBefore_iff] at *
  omega

/-- Slots in use stand at different places of the Priority List (R43). -/
theorem place_ne {s : State} (hl : ListsOk s) {a b : Slot} (ha : (s.pan a).state ≠ .free) (h : a ≠ b) : s.place a ≠ s.place b :=
  fun he => h ((List.idxOf_inj ((hl.2.2.1 a).mpr ha)).mp he)

theorem ranksBefore_total {s : State} (hl : ListsOk s) {a b : Slot} (ha : (s.pan a).state ≠ .free) (h : a ≠ b) :
    s.ranksBefore a b = true ∨ s.ranksBefore b a = true := by
  have hplace := place_ne hl ha h
  rw [ranksBefore_iff, ranksBefore_iff]
  unfold State.place at hplace
  omega

/-- The chosen pans: the two highest-ranked candidates, the first in front, or all of one or two. -/
structure Chosen (s : State) (cands chosen : List Slot) : Prop where
  nodup : chosen.Nodup
  mem : ∀ n ∈ chosen, n ∈ cands
  length : chosen.length = min 2 cands.length
  ranked : chosen.Pairwise fun a b => s.ranksBefore a b = true
  best : ∀ a ∈ chosen, ∀ b ∈ cands, b ∉ chosen → s.ranksBefore a b = true

theorem choose_spec {s : State} {cands : List Slot} (hl : ListsOk s) (hn : cands.Nodup) (hc : ∀ n ∈ cands, (s.pan n).state ≠ .free) :
    Chosen s cands (s.choose cands) := by
  have htotal : ∀ l : List Slot, (∀ n ∈ l, n ∈ cands) → ∀ a ∈ l, ∀ b ∈ l, a ≠ b → s.ranksBefore a b = true ∨ s.ranksBefore b a = true :=
    fun l hmem a ha b _ hab => ranksBefore_total hl (hc a (hmem a ha)) hab
  unfold State.choose
  cases ha : bestBy s.ranksBefore cands with
  | none =>
    rw [bestBy_eq_none_iff.mp ha]
    exact ⟨.nil, nofun, rfl, .nil, nofun⟩
  | some a =>
    have hmema := bestBy_mem ha
    have hbesta := bestBy_best (ranksBefore_trans s) (htotal cands fun _ => id) ha
    have hrest : ∀ n, n ∈ cands.filter (fun n => decide (n ≠ a)) ↔ n ∈ cands ∧ n ≠ a := fun n => by simp
    cases hb : bestBy s.ranksBefore (cands.filter fun n => decide (n ≠ a)) with
    | none =>
      have hall : ∀ n ∈ cands, n = a := fun n hn => by
        by_contra hna
        have := (hrest n).mpr ⟨hn, hna⟩
        rw [bestBy_eq_none_iff.mp hb] at this
        cases this
      have hone : cands = [a] := by
        have hperm : cands.Perm [a] := (List.perm_ext_iff_of_nodup hn (List.nodup_singleton a)).mpr fun n => by
          rw [List.mem_singleton]
          exact ⟨hall n, fun h => h ▸ hmema⟩
        exact hperm.eq_singleton
      simp only [hb]
      refine ⟨List.nodup_singleton a, fun n h => List.mem_singleton.mp h ▸ hmema, by rw [hone]; rfl, List.pairwise_singleton _ _,
        fun x _ b hb hnot => absurd (List.mem_singleton.mpr (hall b hb)) hnot⟩
    | some b =>
      obtain ⟨hmemb, hba⟩ := (hrest b).mp (bestBy_mem hb)
      have hbestb := bestBy_best (ranksBefore_trans s) (htotal _ fun n hn => ((hrest n).mp hn).1) hb
      have hnodup : [a, b].Nodup := by simp [Ne.symm hba]
      have hsub : ∀ n ∈ [a, b], n ∈ cands := fun n h => by
        rcases List.mem_pair.mp h with rfl | rfl
        · exact hmema
        · exact hmemb
      simp only [hb]
      refine ⟨hnodup, hsub, ?_, List.pairwise_pair.mpr (hbesta b hmemb hba), fun x hx m hm hnot => ?_⟩
      · have hlen : [a, b].length ≤ cands.length := (hnodup.subperm hsub).length_le
        exact (Nat.min_eq_left hlen).symm
      · rw [List.mem_pair, not_or] at hnot
        rcases List.mem_pair.mp hx with rfl | rfl
        · exact hbesta m hm hnot.1
        · exact hbestb m ((hrest m).mpr ⟨hm, hnot.1⟩) hnot.2

/-- The chosen pans in the order in which their power is fitted (R132). -/
theorem inPriorityOrder_spec {s : State} {chosen : List Slot} (hl : ListsOk s) (h : AtMostTwo chosen)
    (hc : ∀ n ∈ chosen, (s.pan n).state ≠ .free) : (s.inPriorityOrder chosen).Perm chosen ∧
      (s.inPriorityOrder chosen).Pairwise fun a b => s.priority.idxOf a < s.priority.idxOf b := by
  rcases h with rfl | ⟨a, rfl⟩ | ⟨a, b, hab, rfl⟩
  · exact ⟨.nil, .nil⟩
  · exact ⟨.refl _, List.pairwise_singleton _ _⟩
  · have hplace := place_ne hl (hc a List.mem_cons_self) hab
    unfold State.inPriorityOrder
    simp only
    split
    · next hlt => exact ⟨.swap a b [], List.pairwise_pair.mpr hlt⟩
    · next hge => exact ⟨.refl _, List.pairwise_pair.mpr (lt_of_le_of_ne (not_lt.mp hge) hplace)⟩

/-! ## The power (R131, R132) -/

/-- What is fitted of a demand to the power left. -/
def fitted (demand : Slot → Nat) (left : Nat) (n : Slot) : Nat := min (demand n) (min 3600 left) / 10 * 10

/-- What is fitted to the pans served, the first of them first. -/
def shareOf (demand : Slot → Nat) (available : Nat) (served : List Slot) (n : Slot) : Nat :=
  match served with
  | [] => 0
  | a :: _ => if n = a then fitted demand available a else fitted demand (available - fitted demand available a) n

/-- The fit of a chosen pan. -/
theorem find_fits {s : State} (g : Gen) {chosen : List Slot} (h : AtMostTwo chosen) {n : Slot} (hn : n ∈ chosen) :
    powerOf (s.fits g chosen) n = shareOf (s.demand g) (s.available g) (s.inPriorityOrder chosen) n ∧
      ((s.fits g chosen).any fun f => decide (f.slot = n ∧ f.power < f.demand)) =
        decide (shareOf (s.demand g) (s.available g) (s.inPriorityOrder chosen) n < s.demand g n) := by
  have hone : ∀ left (m : Slot) d, fitDemands left [(m, d)] = [⟨m, d, floorTen (min d (min Config.maxLegPower left))⟩] := fun _ _ _ => rfl
  have hpair : ∀ a b : Slot, a ≠ b → n = a ∨ n = b → powerOf (fitDemands (s.available g) [(a, s.demand g a), (b, s.demand g b)]) n =
      shareOf (s.demand g) (s.available g) [a, b] n ∧
        ((fitDemands (s.available g) [(a, s.demand g a), (b, s.demand g b)]).any fun f => decide (f.slot = n ∧ f.power < f.demand)) =
          decide (shareOf (s.demand g) (s.available g) [a, b] n < s.demand g n) := by
    intro a b hab hn
    rcases hn with rfl | rfl
    · simp [fitDemands, powerOf, shareOf, fitted, floorTen, Config.maxLegPower, hab.symm]
    · simp [fitDemands, powerOf, shareOf, fitted, floorTen, Config.maxLegPower, hab, hab.symm]
  rcases h with rfl | ⟨a, rfl⟩ | ⟨a, b, hab, rfl⟩
  · cases hn
  · cases List.mem_singleton.mp hn
    simp [State.fits, State.inPriorityOrder, fitDemands, powerOf, shareOf, fitted, floorTen, Config.maxLegPower]
  · unfold State.fits State.inPriorityOrder
    simp only
    split
    · exact hpair b a hab.symm (List.mem_pair.mp hn).symm
    · exact hpair a b hab (List.mem_pair.mp hn)

theorem fitted_spec (demand : Slot → Nat) (left : Nat) (n : Slot) : fitted demand left n ≤ 3600 ∧ fitted demand left n % 10 = 0 := by
  unfold fitted
  omega

theorem shareOf_spec (demand : Slot → Nat) (available : Nat) (served : List Slot) (n : Slot) :
    shareOf demand available served n ≤ 3600 ∧ shareOf demand available served n % 10 = 0 := by
  unfold shareOf
  repeat' split
  · exact ⟨by omega, rfl⟩
  · exact fitted_spec _ _ _
  · exact fitted_spec _ _ _

end Sys2Proof.Machine

/-! PROOFS. The order that a build writes: its legs, the pans' debts and masks, and the events (R127, R128, R131 to R137). -/

namespace Sys2Proof.Machine

/-! ## Coils and demands (R125, R131) -/

theorem not_unfit (s : State) (c : CoilNo) : (!s.unfit c) = (!(s.coil c).hot && !(s.coil c).fault && !s.excluded c) := by
  simp only [State.unfit, Bool.not_or]

/-- The coils over which a pan's power is divided: an OFF coil has no owner. -/
theorem usableCoils_eq (s : State) (n : Slot) : s.usableCoils n =
    allCoils.filter fun c => decide ((s.coil c).state.owner = some (s.panId n)) && !s.unfit c := by
  rw [State.usableCoils, State.ownedCoils, List.filter_filter]
  refine List.filter_congr fun c _ => ?_
  by_cases ho : (s.coil c).state.owner = some (s.panId n)
  · have hon : (s.coil c).state.isOff = false := by
      cases hst : (s.coil c).state with
      | off m => rw [hst] at ho; cases ho
      | _ => rfl
    simp [ho, hon]
  · simp [ho]

theorem coverOf_eq (s : State) (cs : List CoilNo) :
    s.coverOf cs = (cs.map fun c => ((s.coil c).coverage.map (·.val)).getD 0).sum := by
  unfold State.coverOf
  congr 2
  funext c
  cases (s.coil c).coverage <;> rfl

/-! ## Inverters and legs (R130, R133, R135) -/

/-- The inverter of a chosen pan (R130). -/
def chosenInverter (s : State) (g : Gen) (chosen : List Slot) (n : Slot) : Inverter :=
  inverterOf (s.alloc g).memory (s.panId n) ((chosen.find? fun m => decide (m ≠ n)).map s.panId) (decide (chosen.head? = some n))

/-- The leg of a chosen pan with this power. -/
def chosenLeg (s : State) (g : Gen) (chosen : List Slot) (power : Slot → Nat) (n : Slot) : Leg :=
  let isSplit := decide ((s.pan n).plan = some .split)
  ⟨chosenInverter s g chosen n, s.panId n, s.legSet g n, power n, isSplit, if isSplit then n else 0⟩

theorem legFor_eq {s : State} {g : Gen} {chosen : List Slot} {fits : List Fit} {power : Slot → Nat} {n : Slot}
    (h : powerOf fits n = power n) : s.legFor g chosen fits n =
      if power n = 0 then none else some (chosenLeg s g chosen power n) := by
  unfold State.legFor
  rw [← powerOf, h]
  rfl

theorem filterMap_ite {α β : Type} (p : α → Prop) [DecidablePred p] (f : α → β) : ∀ l : List α,
    (l.filterMap fun x => if p x then none else some (f x)) = (l.filter fun x => decide (¬ p x)).map f
  | [] => rfl
  | x :: xs => by
    by_cases hx : p x <;> simp [hx, filterMap_ite p f xs]

/-- The legs of a build's order, inverter A first (R135). -/
theorem legsFor_eq {s : State} {g : Gen} {chosen : List Slot} {fits : List Fit} {power : Slot → Nat}
    (h : ∀ n ∈ chosen, powerOf fits n = power n) :
    let legs := (chosen.filter fun n => decide (power n ≠ 0)).map (chosenLeg s g chosen power)
    s.legsFor g chosen fits = (legs.filter fun l => decide (l.inverter = .a)) ++ (legs.filter fun l => decide (l.inverter = .b)) := by
  intro legs
  have hlegs : chosen.filterMap (s.legFor g chosen fits) = legs := by
    rw [List.filterMap_congr fun n hn => legFor_eq (h n hn)]
    exact filterMap_ite (fun n => power n = 0) (chosenLeg s g chosen power) chosen
  rw [State.legsFor, hlegs]

/-- The legs by their inverters are the legs in another order. -/
theorem byInverter_perm (legs : List Leg) :
    ((legs.filter fun l => decide (l.inverter = .a)) ++ (legs.filter fun l => decide (l.inverter = .b))).Perm legs := by
  have hb : (legs.filter fun l => decide (l.inverter = .b)) = legs.filter fun l => !decide (l.inverter = .a) :=
    List.filter_congr fun l _ => by cases l.inverter <;> rfl
  rw [hb]
  exact List.filter_append_perm _ legs

theorem panId_inj (s : State) {a b : Slot} (h : s.panId a = s.panId b) : a = b := congrArg PanId.slot h

/-! ## Masks (R128) -/

theorem getLsbD_withBit (m : BitVec 4) (g h : Gen) (b : Bool) :
    (withBit m g b).getLsbD h.val = if h ≠ g then m.getLsbD h.val else b := by
  revert m
  revert g h b
  decide

/-! ## The events (R137) -/

/-- What a build tells of one slot, between the state before it and the state after. -/
def tellPower (g : Gen) (s t x : State) (n : Slot) : State :=
  if ((s.pan n).short = 0 ↔ (t.pan n).short = 0) then x
  else if (t.pan n).short ≠ 0 then x.postEvent ⟨.powerReduced, s.now % 65536, some ⟨n, some (s.pan n).tag⟩, some g, none, none⟩
  else if s.heating n then x.postEvent ⟨.powerRestored, s.now % 65536, some ⟨n, some (s.pan n).tag⟩, some g, none, none⟩
  else x

/-- The pans, the permit and the clock as a build leaves them, so that the same pans are heating-eligible as before. -/
structure ToldBy (s t x : State) : Prop where
  pan : ∀ n, x.pan n = t.pan n
  heating : ∀ n, x.heating n = s.heating n
  tag : ∀ n, (x.pan n).tag = (s.pan n).tag
  now : x.now = s.now

theorem ToldBy.postEvent {s t x : State} (h : ToldBy s t x) (e : Event) : ToldBy s t (x.postEvent e) where
  pan n := (State.pan_postEvent x e n).trans (h.pan n)
  heating n := (heating_congr (by rw [State.pan_postEvent]) (by rw [State.pan_postEvent]) (by rw [State.pan_postEvent])
    (by rw [State.pan_postEvent]) (by rw [State.permit_postEvent]) (State.safe_postEvent x e)).trans (h.heating n)
  tag n := by rw [State.pan_postEvent]; exact h.tag n
  now := (State.now_postEvent x e).trans h.now

theorem reduced_eq_iff (p q : Pan) : p.reduced = q.reduced ↔ (p.short = 0 ↔ q.short = 0) := by
  simp only [Pan.reduced, decide_eq_decide, not_iff_not]

/-- One slot's part of `postPowers`. -/
def powerStep (g : Gen) (before x : State) (n : Slot) : State :=
  if (before.pan n).reduced = (x.pan n).reduced then x
  else if (x.pan n).reduced = true then x.postPower .powerReduced (x.panId n) g
  else if x.heating n = true then x.postPower .powerRestored (x.panId n) g
  else x

theorem powerStep_eq {g : Gen} {s t x : State} (h : ToldBy s t x) (n : Slot) : powerStep g s x n = tellPower g s t x n := by
  have hpost : ∀ k, x.postPower k (x.panId n) g = x.postEvent ⟨k, s.now % 65536, some ⟨n, some (s.pan n).tag⟩, some g, none, none⟩ :=
    fun k => by rw [← h.now, ← h.tag]; rfl
  have hreduced : (t.pan n).reduced = true ↔ (t.pan n).short ≠ 0 := decide_eq_true_iff
  unfold powerStep tellPower
  simp only [hpost, h.pan, reduced_eq_iff, hreduced, h.heating]

theorem ToldBy.tell {g : Gen} {s t x : State} (h : ToldBy s t x) (n : Slot) : ToldBy s t (tellPower g s t x n) := by
  unfold tellPower
  repeat' split
  · exact h
  · exact h.postEvent _
  · exact h.postEvent _
  · exact h

theorem powerSteps_eq {g : Gen} {s t : State} : ∀ (l : List Slot) {x : State}, ToldBy s t x →
    l.foldl (powerStep g s) x = l.foldl (tellPower g s t) x
  | [], _, _ => rfl
  | n :: rest, _, h => by
    rw [List.foldl_cons, List.foldl_cons, powerStep_eq h n, powerSteps_eq rest (h.tell n)]

theorem sameQueue_tellPower {g : Gen} {s t x y : State} (h : SameQueue x y) (n : Slot) :
    SameQueue (tellPower g s t x n) (tellPower g s t y n) := by
  unfold tellPower
  repeat' split
  · exact h
  · exact h.postEvent _
  · exact h.postEvent _
  · exact h

/-- What a build writes leaves its pan's tag, state, level and flags. -/
theorem builtPan_kept (s : State) (g : Gen) (n : Slot) : (s.builtPan g n).tag = (s.pan n).tag ∧
    (s.builtPan g n).state = (s.pan n).state ∧ (s.builtPan g n).level = (s.pan n).level ∧ (s.builtPan g n).held = (s.pan n).held ∧
      (s.builtPan g n).barred = (s.pan n).barred := by
  unfold State.builtPan Machine.builtPan
  repeat' split
  all_goals exact ⟨rfl, rfl, rfl, rfl, rfl⟩

theorem BuildLeaves.queue {g : Gen} {s t : State} (h : BuildLeaves g s t) :
    SameQueue (allSlots.foldl (tellPower g s t) s) t := by
  obtain ⟨v, hq, hpermit, hsafe, hpan, ht⟩ := h.told
  have htold : ToldBy s t v := by
    refine ⟨fun n => (hpan n).trans (h.pan n).symm, fun n => ?_, fun n => ?_, hq.now⟩
    · obtain ⟨_, hstate, hlevel, hheld, hbarred⟩ := builtPan_kept s g n
      exact heating_congr (by rw [hpan, hstate]) (by rw [hpan, hlevel]) (by rw [hpan, hheld]) (by rw [hpan, hbarred]) (by rw [hpermit]) hsafe
    · rw [hpan, (builtPan_kept s g n).1]
  have hfold : t = allSlots.foldl (tellPower g s t) v := ht.trans (powerSteps_eq allSlots htold)
  have hsame : SameQueue (allSlots.foldl (tellPower g s t) s) (allSlots.foldl (tellPower g s t) v) :=
    SameQueue.foldl (fun _ _ n h => sameQueue_tellPower h n) allSlots hq
  exact hsame.trans ⟨congrArg State.now hfold, congrArg State.events hfold, congrArg State.eventsLost hfold⟩

/-! ## A build whole -/

/-- The debt and the masks that a build writes. -/
theorem builtPan_spec (s : State) (g : Gen) (power : Slot → Nat) (n : Slot)
    (hshort : n ∈ s.chosen g → ((s.fits g (s.chosen g)).any fun f => decide (f.slot = n ∧ f.power < f.demand)) =
      decide (power n < s.demand g n)) :
    s.builtPan g n = { s.pan n with
      debt := if n ∈ s.chosen g then 0 else if n ∈ s.candidatesFor g then min 15 ((s.pan n).debt + 1) else (s.pan n).debt
      short := (s.builtPan g n).short, unserved := (s.builtPan g n).unserved } ∧
    ∀ h : Gen,
      (s.builtPan g n).short.getLsbD h.val = (if h ≠ g then (s.pan n).short.getLsbD h.val
        else if n ∈ s.chosen g then decide (power n < s.demand g n)
        else if n ∈ s.candidatesFor g then (s.pan n).short.getLsbD h.val else false) ∧
      (s.builtPan g n).unserved.getLsbD h.val = (if h ≠ g then (s.pan n).unserved.getLsbD h.val
        else decide (n ∉ s.chosen g ∧ n ∈ s.candidatesFor g)) := by
  unfold State.builtPan Machine.builtPan
  by_cases hchosen : n ∈ s.chosen g
  · simp only [if_pos hchosen, hshort hchosen, getLsbD_withBit]
    simp [hchosen]
  · by_cases hcand : n ∈ s.candidatesFor g
    · simp only [if_neg hchosen, if_pos hcand, getLsbD_withBit]
      simp [hchosen, hcand, Config.maxDebt]
    · simp only [if_neg hchosen, if_neg hcand, getLsbD_withBit]
      simp [hchosen, hcand]

end Sys2Proof.Machine

/-! PROOFS. A build whole (R122, R125 to R137). -/

namespace Sys2Proof.Machine

theorem levelPower_succ (s : State) (n : Fin 13) : s.levelPower n.succ = s.levels.entry n := by
  exact dif_neg (Nat.succ_ne_zero n.val)

/-- The inverter rule (R130), read as one table of what the pan and the other chosen pan have kept. -/
theorem chosenInverter_eq (s : State) (g : Gen) (chosen : List Slot) (n : Slot) :
    let kept : Slot → Option Inverter := fun n => ((s.alloc g).memory.find? fun e => decide (e.pan = s.panId n)).map (·.inverter)
    chosenInverter s g chosen n =
      match kept n, (chosen.find? fun m => decide (m ≠ n)).bind kept with
      | some i, _ => i
      | none, some .a => .b
      | none, some .b => .a
      | none, none => if chosen.head? = some n then .a else .b := by
  intro kept
  have hbind : ((chosen.find? fun m => decide (m ≠ n)).map s.panId).bind (keptInverter (s.alloc g).memory) =
      (chosen.find? fun m => decide (m ≠ n)).bind kept := by
    rw [Option.bind_map]
    rfl
  have hself : keptInverter (s.alloc g).memory (s.panId n) = kept n := rfl
  unfold chosenInverter inverterOf
  rw [hbind, hself]
  cases kept n with
  | some i => rfl
  | none =>
    rcases (chosen.find? fun m => decide (m ≠ n)).bind kept with _ | (_ | _)
    · simp only [decide_eq_true_eq]
    · rfl
    · rfl

/-- A pan's demand on a generator, over the coils that count (R131). -/
theorem demand_eq (s : State) (g : Gen) (n : Slot) : s.demand g n =
    if s.coverOf (s.usableCoils n) = 0 then 0
    else s.levelPower (s.pan n).level * s.coverOf (s.legSet g n) / s.coverOf (s.usableCoils n) / 10 * 10 := rfl

theorem mem_candidatesFor {s : State} {g : Gen} {n : Slot} : n ∈ s.candidatesFor g ↔ s.heating n = true ∧ s.legSet g n ≠ [] := by
  simp [State.candidatesFor, mem_allSlots]

/-- The power a build gives a chosen pan. -/
def State.powerShare (s : State) (g : Gen) : Slot → Nat :=
  shareOf (s.demand g) (s.available g) (s.inPriorityOrder (s.chosen g))

/-- The legs of a build before inverter A's are put first. -/
def State.chosenLegs (s : State) (g : Gen) : List Leg :=
  ((s.chosen g).filter fun n => decide (s.powerShare g n ≠ 0)).map (chosenLeg s g (s.chosen g) (s.powerShare g))

theorem builtLegs_eq (s : State) (g : Gen) : s.builtLegs g =
    ((s.chosenLegs g).filter fun l => decide (l.inverter = .a)) ++ ((s.chosenLegs g).filter fun l => decide (l.inverter = .b)) :=
  legsFor_eq fun _ hn => (find_fits g (choose_atMostTwo s (s.candidatesFor g)) hn).1

theorem builtLegs_perm (s : State) (g : Gen) : (s.builtLegs g).Perm (s.chosenLegs g) := by
  rw [builtLegs_eq]
  exact byInverter_perm _

theorem chosen_spec {s : State} (hl : ListsOk s) (g : Gen) : Chosen s (s.candidatesFor g) (s.chosen g) :=
  choose_spec hl (nodup_allSlots.filter _) fun _ hn => taken_of_candidate hn

theorem builtLegs_length (s : State) (g : Gen) : (s.builtLegs g).length ≤ 2 := by
  have htwo : (s.chosen g).length ≤ 2 := by
    rcases choose_atMostTwo s (s.candidatesFor g) with h | ⟨a, h⟩ | ⟨a, b, _, h⟩ <;> simp [State.chosen, h]
  calc (s.builtLegs g).length = (s.chosenLegs g).length := (builtLegs_perm s g).length_eq
    _ ≤ (s.chosen g).length := by rw [State.chosenLegs, List.length_map]; exact List.length_filter_le _ _
    _ ≤ 2 := htwo

theorem builtLegs_pans {s : State} (hl : ListsOk s) (g : Gen) : ((s.builtLegs g).map (·.pan)).Nodup := by
  have hpans : (s.chosenLegs g).map (·.pan) = ((s.chosen g).filter fun n => decide (s.powerShare g n ≠ 0)).map s.panId := by
    rw [State.chosenLegs, List.map_map]
    rfl
  rw [((builtLegs_perm s g).map _).nodup_iff, hpans]
  exact ((chosen_spec hl g).nodup.filter _).map fun _ _ => panId_inj s

theorem builtLegs_ok {s : State} {g : Gen} {l : Leg} (h : l ∈ s.builtLegs g) :
    l.coils ≠ [] ∧ 10 ≤ l.power ∧ l.power ≤ 3600 ∧ l.power % 10 = 0 ∧ s.heatingOwner l.pan = true := by
  obtain ⟨n, hn, rfl⟩ := List.mem_map.mp ((builtLegs_perm s g).mem_iff.mp h)
  obtain ⟨hn, hp⟩ := List.mem_filter.mp hn
  have hpower : s.powerShare g n ≠ 0 := of_decide_eq_true hp
  obtain ⟨hheating, hset⟩ := mem_candidatesFor.mp (mem_of_choose hn)
  obtain ⟨hle, hten⟩ : s.powerShare g n ≤ 3600 ∧ s.powerShare g n % 10 = 0 := shareOf_spec _ _ _ n
  refine ⟨hset, ?_, hle, hten, ?_⟩
  · show 10 ≤ s.powerShare g n
    omega
  · show (decide _ && s.heating n) = true
    rw [hheating, Bool.and_true]
    exact decide_eq_true rfl

theorem builtOrder_charge_le (s : State) (g : Gen) : (s.builtOrder g).charge ≤ s.available g := by
  have hsum : (s.builtOrder g).charge = ((s.chosen g).map (powerOf (s.fits g (s.chosen g)))).sum := sum_power_legsFor s g _ _
  rw [hsum]
  exact sum_powerOf_le s g (choose_atMostTwo s _)

/-- Settles O47: the order is written by `buildLeaves_of_sound`, and each choice in it is read off by a lemma of its own. -/
theorem buildWritesTheOrder : Obligations.BuildWritesTheOrder := by
  unfold Obligations.BuildWritesTheOrder
  refine ⟨fun s n => ⟨levelPower_succ s n, rfl⟩, fun s g hs hl => ?_⟩
  intro fit legSet usable cover demand available cands ahead outranks kept
  have hfit : ∀ c, fit c = !s.unfit c := fun c => (not_unfit s c).symm
  have hlegSet : s.legSet g = legSet := funext fun n => List.filter_congr fun c _ => by rw [hfit]
  have husable : s.usableCoils = usable := funext fun n => (usableCoils_eq s n).trans (List.filter_congr fun c _ => by rw [hfit])
  have hdemand : s.demand g = demand := funext fun n => by rw [demand_eq, coverOf_eq, coverOf_eq, husable, hlegSet]
  have hcands : s.candidatesFor g = cands := by rw [State.candidatesFor, hlegSet]
  obtain ⟨t, ht, h⟩ := buildLeaves_of_sound hs g
  have hchosen := chosen_spec hl g
  have hserved := inPriorityOrder_spec hl (choose_atMostTwo s (s.candidatesFor g)) fun n hn => taken_of_candidate (mem_of_choose hn)
  refine ⟨t, s.builtOrder g, s.chosen g, s.inPriorityOrder (s.chosen g), ht, h.sound, ?_, hserved, ?_, ⟨h.queue.events, h.queue.lost⟩, h.desk, rfl, rfl,
    h.alloc, rfl, builtLegs_length s g, builtLegs_pans hl g, fun l => builtLegs_ok, builtOrder_charge_le s g, ?_, ?_, h.others, h.frame⟩
  · have hranks : ∀ a b, s.ranksBefore a b = true → outranks a b := fun a b => (ranksBefore_iff s a b).mp
    rw [← hcands]
    exact ⟨hchosen.nodup, hchosen.mem, hchosen.length, hchosen.ranked.imp (hranks _ _), fun a ha b hb hnot => hranks a b (hchosen.best a ha b hb hnot)⟩
  · intro fitted power inverter legs
    have hpower : s.powerShare g = power := by
      funext n
      rw [State.powerShare, hdemand]
      rfl
    have hinverter : chosenInverter s g (s.chosen g) = inverter := funext fun n => chosenInverter_eq s g (s.chosen g) n
    have hlegs : s.chosenLegs g = legs := by
      unfold State.chosenLegs chosenLeg
      rw [hpower, hinverter, hlegSet]
    refine ⟨hlegs ▸ builtLegs_eq s g, fun n => ?_⟩
    have hpan := builtPan_spec s g (s.powerShare g) n fun hn => (find_fits g (choose_atMostTwo s (s.candidatesFor g)) hn).2
    rw [hpower, hdemand, hcands, ← h.pan n] at hpan
    exact hpan
  · rw [h.account, if_pos rfl]
  · intro q hq
    rw [h.account, if_neg hq]

end Sys2Proof.Machine

/-! PROOFS. SWEEP: its entries one by one, and what follows them (R23 to R28). -/

namespace Sys2Proof.Machine

/-! ## One entry -/

/-- The tests of an entry (R23). -/
def entryPasses (g : Gen) (x : State) (e : SweepEntry) : Bool :=
  reaches g e.coil && decide (x.driverGen e.coil = g) &&
    (match (x.coil e.coil).state with
      | .off _ => false
      | .switching _ _ => false
      | .releasing _ _ offPending => !offPending
      | _ => true)

/-- A coil record as an entry leaves it, its code apart. -/
def entryRead (e : SweepEntry) (r : Coil) : Coil := { r with
  coverage := some e.coverage
  hot := match e.temp with
    | .normal => false
    | .warm => r.hot
    | .hot => true
  fault := r.fault || e.fault }

/-- One entry of a SWEEP, with what was ignored and which orders were affected up to it. -/
def entryStep (g : Gen) : Flow × Nat × List Gen → SweepEntry → Flow × Nat × List Gen := fun (f, ignored, affected) e =>
  match f with
  | .safe v => (.safe v, ignored + 1, affected)
  | .ok x =>
    let r := x.coil e.coil
    let q := entryRead e r
    if r.codeOk = false then (.safe (enterSafe (.coil e.coil) x), ignored + 1, affected)
    else if entryPasses g x e then
      let y : State := { x with
        coils := x.coils.set e.coil { q with codeOk := !x.marks.coilMap }
        marks := { x.marks with coilMap := false } }
      (.ok (if !r.fault && q.fault then y.postEvent ⟨.coilFault, x.now % 65536, none, some g, some e.coil, none⟩ else y),
        ignored,
        affected ++ if r.state.inLeg && ((!r.hot && q.hot) || (!r.fault && q.fault)) then [x.driverGen e.coil] else [])
    else (.ok x, ignored + 1, affected)

theorem apply_eq (e : SweepEntry) (r : Coil) : r.apply e = entryRead e r := by
  unfold Coil.apply entryRead TempClass.hotAfter
  cases e.temp <;> rfl

theorem applies_eq (s : State) (g : Gen) (e : SweepEntry) : s.applies g e = entryPasses g s e := by
  unfold State.applies entryPasses
  congr 1
  cases (s.coil e.coil).state with
  | releasing o n offPending => cases offPending <;> rfl
  | _ => rfl

theorem unfits_eq (e : SweepEntry) (r : Coil) : unfits e r =
    (r.state.inLeg && ((!r.hot && (entryRead e r).hot) || (!r.fault && (entryRead e r).fault))) := by
  rw [unfits, apply_eq]

theorem raised_eq (e : SweepEntry) (r : Coil) : (!r.fault && e.fault) = (!r.fault && (entryRead e r).fault) := by
  unfold entryRead
  cases r.fault <;> rfl

/-- The state that an entry leaves where it passes its tests. -/
def entryWritten (g : Gen) (x : State) (e : SweepEntry) : State :=
  let y : State := { x with
    coils := x.coils.set e.coil { entryRead e (x.coil e.coil) with codeOk := !x.marks.coilMap }
    marks := { x.marks with coilMap := false } }
  if !(x.coil e.coil).fault && (entryRead e (x.coil e.coil)).fault then
    y.postEvent ⟨.coilFault, x.now % 65536, none, some g, some e.coil, none⟩ else y

section
variable {s : State} {e : SweepEntry} (g : Gen)

theorem applyEntry_good (h : (s.coil e.coil).codeOk = true) : applyEntry g e s = .ok (entryWritten g s e) := by
  unfold applyEntry rewriteCoil
  rw [checkCoil_good h, Flow.ok_andThen, Flow.ok_andThen, raised_eq, apply_eq]
  rfl

theorem entryStep_bad (ignored : Nat) (affected : List Gen) (h : (s.coil e.coil).codeOk = false) :
    entryStep g (.ok s, ignored, affected) e = (.safe (enterSafe (.coil e.coil) s), ignored + 1, affected) := if_pos h

theorem entryStep_passed (ignored : Nat) (affected : List Gen) (h : (s.coil e.coil).codeOk = true) (hp : s.applies g e = true) :
    entryStep g (.ok s, ignored, affected) e = (.ok (entryWritten g s e), ignored,
      affected ++ if unfits e (s.coil e.coil) then [s.driverGen e.coil] else []) := by
  rw [applies_eq] at hp
  rw [unfits_eq]
  exact (if_neg (h ▸ nofun)).trans (if_pos hp)

theorem entryStep_ignored (ignored : Nat) (affected : List Gen) (h : (s.coil e.coil).codeOk = true) (hp : ¬ s.applies g e = true) :
    entryStep g (.ok s, ignored, affected) e = (.ok s, ignored + 1, affected) := by
  rw [applies_eq] at hp
  exact (if_neg (h ▸ nofun)).trans (if_neg hp)

end

/-! ## All entries -/

/-- After a failed check the rest counts as ignored (R28). -/
theorem foldl_entryStep_safe (g : Gen) (v : State) (affected : List Gen) : ∀ (es : List SweepEntry) (ignored : Nat),
    es.foldl (entryStep g) (.safe v, ignored, affected) = (.safe v, ignored + es.length, affected)
  | [], _ => rfl
  | e :: rest, ignored => by
    rw [List.foldl_cons]
    exact (foldl_entryStep_safe g v affected rest (ignored + 1)).trans (by rw [List.length_cons, Nat.add_assoc, Nat.add_comm 1])

theorem applyEntries_eq (g : Gen) : ∀ (es : List SweepEntry) (ignored : Nat) (affected : List Gen) (s : State),
    applyEntries g es ignored affected s =
      ⟨(es.foldl (entryStep g) (.ok s, ignored, affected)).1, (es.foldl (entryStep g) (.ok s, ignored, affected)).2.1,
        (es.foldl (entryStep g) (.ok s, ignored, affected)).2.2⟩
  | [], _, _, _ => rfl
  | e :: rest, ignored, affected, s => by
    rw [List.foldl_cons, applyEntries]
    cases hcode : (s.coil e.coil).codeOk with
    | false => rw [checkCoil_bad hcode, entryStep_bad g _ _ hcode, foldl_entryStep_safe, Nat.add_assoc, Nat.add_comm 1]
    | true =>
      rw [checkCoil_good hcode]
      by_cases hpass : s.applies g e = true
      · rw [entryStep_passed g _ _ hcode hpass]
        simp only [if_pos hpass, applyEntry_good g hcode]
        exact applyEntries_eq g rest _ _ _
      · rw [entryStep_ignored g _ _ hcode hpass]
        simp only [if_neg hpass]
        exact applyEntries_eq g rest _ _ _

/-! ## A SWEEP -/

theorem entries_of_sound (g : Gen) (es : List SweepEntry) (ignored : Nat) (affected : List Gen) {s : State} (hs : s.Sound) :
    ∃ x, (applyEntries g es ignored affected s).flow = .ok x ∧ x.Sound := by
  obtain ⟨x, hx, _, hsound⟩ := (serves_applyEntries g es ignored affected s).completes hs
  exact ⟨x, hx, hsound⟩

/-- What follows the entries, every code being valid. -/
theorem sweep_of_sound (g : Gen) (es : List SweepEntry) {s : State} (hs : s.Sound) :
    let i := applyEntries g es 0 [] s
    ∃ x s1 s2 u, i.flow = .ok x ∧ Reported i.affected x s1 ∧ evaluate s1 = .ok s2 ∧ Undisturbed s1 s2 ∧ Settled s s2 u ∧
      (sweep g es s).1 = .ok u := by
  intro i
  obtain ⟨x, hx, hsound⟩ := entries_of_sound g es 0 [] hs
  obtain ⟨s1, h1⟩ := Run.reported (gs := i.affected) hsound
  obtain ⟨s2, h2, hpath, hsound2⟩ := (run_evaluate (D := fun _ => True) s1 (holdsNone_all s1)).completes h1.sound
  obtain ⟨u, hu⟩ := settled_sound s hsound2
  refine ⟨x, s1, s2, u, hx, h1, h2, hpath.undisturbed (by decide), hu, ?_⟩
  have hwork : (sweep g es s).1 = i.flow.andThen fun t => (reportAll i.affected t).andThen fun t => (evaluate t).andThen (settle s) := rfl
  rw [hwork, hx, Flow.ok_andThen, h1.work, Flow.ok_andThen, h2, Flow.ok_andThen, hu.work]

theorem serve_sweep {s : State} {g : Gen} {body : List Byte} {entries : List SweepEntry} (hs : s.safe = false)
    (hd : (s.desk g).state ≠ .disabled) (ha : (s.desk g).state ≠ .absent) (he : sweepFrom body = some entries) :
    serve .sweep (.gl g) body s = ((sweep g entries s).1.state, .done [byteOf (sweep g entries s).2]) := by
  simp [serve, serveSweep, hs, hd, ha, linkGen, he]

/-- Settles O36: the entries are the model's by `applyEntries_eq`; what follows them is `sweep_of_sound`. -/
theorem sweepApplies : Obligations.SweepApplies := by
  unfold Obligations.SweepApplies
  intro s g body entries hl hsafe hb hd ha he passes read apply applied f
  have happlied : applyEntries g entries 0 [] s = ⟨applied.1, applied.2.1, applied.2.2⟩ := applyEntries_eq g entries 0 [] s
  have hsweep : sweep g entries s = (f, applied.2.1) := by
    unfold sweep
    rw [happlied]
  have hserve := serve_sweep hsafe hd ha he
  have hsound := sweep_of_sound g entries (s := s)
  have hserves := serves_sweep g entries s
  rw [hsweep] at hserve hsound hserves
  rw [happlied] at hsound
  exact ⟨exec_answered (k := .sweep) hl hb rfl nofun hserve, hserves.safe.1, hsound⟩

end Sys2Proof.Machine

/-! PROOFS. A generator leaves and comes back: its home coils, their owners' footprints and the coils it drives away from home (R14 to
R16, R61, R156, R157). -/

namespace Sys2Proof.Machine

/-! ## The home coils leave (R15, R61) -/

theorem leaveHome_eq (r : Coil) : r.leaveHome = match r.state with
    | .driven _ n => { r with coverage := none, state := .releasing none n true }
    | .transfer _ n _ => { r with coverage := none, state := .releasing none n true }
    | .releasing _ n _ => { r with coverage := none, state := .releasing none n true }
    | .off _ => r
    | _ => { r with driver := .home, coverage := none, state := .off (returnLeft r) } := by
  unfold Coil.leaveHome
  cases hst : r.state <;> simp only [Coil.toOff, Coil.atRest, restRemaining_eq]

theorem codeOk_leaveHome (r : Coil) : r.leaveHome.codeOk = r.codeOk := by
  unfold Coil.leaveHome
  split <;> rfl

/-- The footprint of a slot without the coils of the list that it owns. -/
def State.footprintWithout (s : State) (l : List CoilNo) (n : Slot) : List CoilNo :=
  (s.pan n).footprint.filter fun c => decide (¬ (c ∈ l ∧ (s.coil c).state.owner = some (s.panId n)))

/-- The state once these home coils have left. -/
def State.without (s : State) (l : List CoilNo) : State :=
  (s.withCoils fun c => if c ∈ l then (s.coil c).leaveHome else s.coil c).withPans fun n =>
    { s.pan n with footprint := s.footprintWithout l n }

theorem coil_without (s : State) (l : List CoilNo) (c : CoilNo) :
    (s.without l).coil c = if c ∈ l then (s.coil c).leaveHome else s.coil c := by
  rw [State.without, coil_withPans, coil_withCoils]

theorem pan_without (s : State) (l : List CoilNo) (n : Slot) :
    (s.without l).pan n = { s.pan n with footprint := s.footprintWithout l n } := by
  rw [State.without, pan_withPans]

theorem panId_without (s : State) (l : List CoilNo) (n : Slot) : (s.without l).panId n = s.panId n := by
  rw [State.panId, pan_without]
  rfl

theorem sound_without {s : State} (hs : s.Sound) (l : List CoilNo) : (s.without l).Sound := by
  refine sound_withPans (sound_withCoils hs fun c => ?_) fun n => hs.pans n
  split
  · rw [codeOk_leaveHome, hs.coils]
  · exact hs.coils c

theorem withPans_eq_of_pans {s : State} {f k : Slot → Pan} (h : ∀ n, f n = k n) : s.withPans f = s.withPans k := by
  rw [funext h]

theorem without_nil (s : State) : s.without [] = s := by
  have hpans : (fun n => { s.pan n with footprint := s.footprintWithout [] n }) = s.pan := funext fun n => by
    simp [State.footprintWithout]
  rw [State.without, hpans]
  simp only [List.not_mem_nil, if_false]
  rw [withCoils_self, withPans_self]

/-- One coil leaves, then the rest. -/
theorem without_without {s : State} {c : CoilNo} {cs : List CoilNo} (hc : c ∉ cs) : (s.without [c]).without cs = s.without (c :: cs) := by
  have hcoils : ∀ d, (if d ∈ cs then ((s.without [c]).coil d).leaveHome else (s.without [c]).coil d) =
      if d ∈ c :: cs then (s.coil d).leaveHome else s.coil d := fun d => by
    rw [coil_without]
    by_cases hd : d = c
    · subst hd
      simp [hc]
    · simp [hd]
  have howner : ∀ d, d ∈ cs → ((s.without [c]).coil d).state = (s.coil d).state := fun d hd => by
    rw [coil_without, if_neg]
    intro h
    exact hc (List.mem_singleton.mp h ▸ hd)
  have hfoot : ∀ n, (s.without [c]).footprintWithout cs n = s.footprintWithout (c :: cs) n := fun n => by
    unfold State.footprintWithout
    rw [pan_without, panId_without, State.footprintWithout, List.filter_filter]
    refine List.filter_congr fun d _ => ?_
    by_cases hd : d ∈ cs
    · have hne : d ≠ c := fun h => hc (h ▸ hd)
      simp [hd, howner d hd, hne]
    · simp [hd]
  have hpans : ∀ n, { (s.without [c]).pan n with footprint := (s.without [c]).footprintWithout cs n } =
      { s.pan n with footprint := s.footprintWithout (c :: cs) n } := fun n => by
    rw [hfoot, pan_without]
  conv_lhs => rw [State.without, funext hcoils, funext hpans]
  simp only [State.without, withCoils_eq, withPans_eq]

theorem footprintWithout_other {s : State} {c : CoilNo} {n : Slot} (h : (s.coil c).state.owner ≠ some (s.panId n)) :
    s.footprintWithout [c] n = (s.pan n).footprint := by
  refine List.filter_eq_self.mpr fun d _ => decide_eq_true fun ⟨hd, ho⟩ => h ?_
  rwa [← List.mem_singleton.mp hd]

theorem footprintWithout_owner {s : State} {c : CoilNo} {n : Slot} (h : (s.coil c).state.owner = some (s.panId n)) :
    s.footprintWithout [c] n = (s.pan n).footprint.filter fun d => decide (d ≠ c) := by
  refine List.filter_congr fun d _ => ?_
  by_cases hd : d = c
  · subst hd
    simp [h]
  · simp [hd]

theorem coilLeaves_of_sound {s : State} (hs : s.Sound) (c : CoilNo) : coilLeaves c s = .ok (s.without [c]) := by
  have hok : (s.coil c).leaveHome.codeOk = true := (codeOk_leaveHome _).trans (hs.coils c)
  obtain ⟨u, hu⟩ : ∃ u, u = s.withCoils fun d => if d ∈ [c] then (s.coil d).leaveHome else s.coil d := ⟨_, rfl⟩
  have hcoils : s.setCoil c (s.coil c).leaveHome = u := by
    rw [hu, ← withCoils_self (s.setCoil c _), withCoils_setCoil]
    refine congrArg s.withCoils (funext fun d => ?_)
    rw [State.coil_setCoil]
    by_cases hd : d = c
    · subst hd
      simp
    · simp [hd]
  have hpan : ∀ n, u.pan n = s.pan n := fun n => by rw [hu, pan_withCoils]
  have hsound : u.Sound := hcoils ▸ hs.setCoil c hok
  have hwithout : s.without [c] = u.withPans fun n => { s.pan n with footprint := s.footprintWithout [c] n } := by rw [hu, State.without]
  have hstays : (∀ n, (s.coil c).state.owner ≠ some (s.panId n)) → s.without [c] = u := fun h => by
    have hpans : (fun n => { s.pan n with footprint := s.footprintWithout [c] n }) = u.pan := funext fun n => by
      rw [footprintWithout_other (h n), hpan]
    rw [hwithout, hpans, withPans_self]
  rw [coilLeaves, editCoil_of_sound hs c hok, Flow.ok_andThen, hcoils]
  cases howner : (s.coil c).state.owner with
  | none =>
    rw [hstays fun n => howner ▸ nofun]
  | some o =>
    simp only [hpan]
    split
    · next htag =>
      have ho : o = s.panId o.slot := by rw [State.panId, htag]
      rw [editPan_of_sound hsound o.slot (f := Pan.without c) (hsound.pans o.slot), hpan, hwithout,
        ← withPans_self (u.setPan o.slot _), withPans_setPan]
      refine congrArg (fun x => Flow.ok (u.withPans x)) (funext fun n => ?_)
      rw [State.pan_setPan, hpan]
      by_cases hn : n = o.slot
      · subst hn
        rw [if_pos rfl, footprintWithout_owner (howner.trans (congrArg some ho)), Pan.without]
      · have hother : (s.coil c).state.owner ≠ some (s.panId n) := fun h =>
          hn (congrArg PanId.slot (Option.some.inj (h.symm.trans howner)))
        rw [if_neg hn, footprintWithout_other hother]
    · next htag =>
      rw [hstays fun n h => htag ?_]
      cases Option.some.inj (howner.symm.trans h)
      rfl

theorem forEach_coilLeaves_of_sound : ∀ (l : List CoilNo), l.Nodup → ∀ {s : State}, s.Sound → forEach coilLeaves l s = .ok (s.without l)
  | [], _, s, _ => congrArg Flow.ok (without_nil s).symm
  | c :: cs, hl, s, hs => by
    obtain ⟨hc, hcs⟩ := List.nodup_cons.mp hl
    rw [forEach, coilLeaves_of_sound hs, Flow.ok_andThen, forEach_coilLeaves_of_sound cs hcs (sound_without hs [c]), without_without hc]

/-! ## The pans that lost coils are told of (R61) -/

/-- What is told of one slot as the coils of the list leave. -/
def tellShrunk (s : State) (l : List CoilNo) (x : State) (n : Slot) : State :=
  if (s.pan n).state = .present ∧ s.footprintWithout l n ≠ [] ∧ s.footprintWithout l n ≠ (s.pan n).footprint then
    x.postEvent ⟨.panMoved, s.now % 65536, some ⟨n, some (s.pan n).tag⟩, none, none, none⟩
  else x

/-- The second state is the first with another queue. -/
def QueueOnly (s t : State) : Prop := t = { s with events := t.events, eventsLost := t.eventsLost }

theorem QueueOnly.postEvent {s t : State} (h : QueueOnly s t) (e : Event) : QueueOnly s (t.postEvent e) := by
  unfold QueueOnly at *
  rw [postEvent_eq t e, h]

theorem QueueOnly.keeps {α : Type} {s t : State} (h : QueueOnly s t) (f : State → α)
    (hf : ∀ (x : State) es b, f { x with events := es, eventsLost := b } = f x) : f t = f s := by
  rw [h]
  exact hf s _ _

/-- One slot's part of `postShrunk`. -/
def shrinkStep (before x : State) (n : Slot) : State :=
  if (x.pan n).state = .present ∧ (x.pan n).footprint ≠ [] ∧ (x.pan n).footprint ≠ (before.pan n).footprint then
    x.postPan .panMoved (x.panId n)
  else x

theorem shrinkStep_eq {s x : State} {l : List CoilNo} (h : QueueOnly (s.without l) x) (n : Slot) :
    shrinkStep s x n = tellShrunk s l x n := by
  have hpan : x.pan n = { s.pan n with footprint := s.footprintWithout l n } := (h.keeps (fun y => State.pan y n) fun _ _ _ => rfl).trans (pan_without s l n)
  have hnow : x.now = s.now := (h.keeps State.now fun _ _ _ => rfl).trans (by rw [State.without, now_withPans, now_withCoils])
  unfold shrinkStep tellShrunk
  rw [State.postPan, State.event, State.panId, hpan, hnow]

theorem QueueOnly.tellShrunk {s x w : State} {l : List CoilNo} (h : QueueOnly w x) (n : Slot) : QueueOnly w (tellShrunk s l x n) := by
  unfold Machine.tellShrunk
  split
  · exact h.postEvent _
  · exact h

theorem shrinkSteps_eq {s : State} {l : List CoilNo} : ∀ (ns : List Slot) {x : State}, QueueOnly (s.without l) x →
    ns.foldl (shrinkStep s) x = ns.foldl (tellShrunk s l) x ∧ QueueOnly (s.without l) (ns.foldl (tellShrunk s l) x)
  | [], _, h => ⟨rfl, h⟩
  | n :: rest, _, h => by
    rw [List.foldl_cons, List.foldl_cons, shrinkStep_eq h n]
    exact shrinkSteps_eq rest (h.tellShrunk n)

theorem sameQueue_tellShrunk {s x y : State} {l : List CoilNo} (h : SameQueue x y) (n : Slot) :
    SameQueue (tellShrunk s l x n) (tellShrunk s l y n) := by
  unfold tellShrunk
  split
  · exact h.postEvent _
  · exact h

/-- The state once the home coils of the list have left and their owners' pans are told of. -/
def State.shrunk (s : State) (l : List CoilNo) : State := { s.without l with
  events := (allSlots.foldl (tellShrunk s l) s).events, eventsLost := (allSlots.foldl (tellShrunk s l) s).eventsLost }

theorem postShrunk_eq (s : State) (l : List CoilNo) : postShrunk s (s.without l) = s.shrunk l := by
  obtain ⟨heq, honly⟩ := shrinkSteps_eq (s := s) (l := l) allSlots (x := s.without l) rfl
  have hqueue : SameQueue s (s.without l) := by
    simp only [State.without]
    exact ⟨by simp, by simp, by simp⟩
  have hsame := SameQueue.foldl (fun _ _ n h => sameQueue_tellShrunk (s := s) (l := l) h n) allSlots hqueue
  rw [postShrunk]
  refine heq.trans (honly.trans ?_)
  rw [hsame.events, hsame.lost]
  rfl

/-! ## The coils it drives away from home (R14) -/

theorem altGen_away : ∀ (c : CoilNo) (g : Gen), altGen c = some g → homeGen c ≠ g ∧ hasRelay c = true := by decide

/-- A coil that a generator drives as its alternate starts home when it is in no order. -/
theorem relayTo_home {c : CoilNo} (h : hasRelay c = true) (r : Coil) : (if r.driver = .alternate then relayTo c .home r else r) =
    match r.driver, r.state with
    | .alternate, .free => { r with driver := .home, state := .switching none 15 }
    | .alternate, .claimed p => { r with driver := .home, state := .switching (some p) 15 }
    | _, _ => r := by
  unfold relayTo
  cases hd : r.driver <;> cases hst : r.state <;> simp [h, Config.switchTime]

end Sys2Proof.Machine

/-! PROOFS. ENABLE GENERATORS, generator by generator (R14 to R16, R61, R156, R157, R186). -/

namespace Sys2Proof.Machine

/-! ## A generator's coils leave -/

/-- A coil that its alternate generator leaves. -/
def Coil.leaveVisitor (r : Coil) : Coil :=
  match r.driver, r.state with
  | .alternate, .free => { r with driver := .home, state := .switching none 15 }
  | .alternate, .claimed p => { r with driver := .home, state := .switching (some p) 15 }
  | _, _ => r

/-- A coil record once this generator has left. -/
def State.coilLeft (s : State) (g : Gen) (c : CoilNo) : Coil :=
  if homeGen c = g then (s.coil c).leaveHome else if altGen c = some g then (s.coil c).leaveVisitor else s.coil c

/-- The state once this generator's coils have left. -/
def State.coilsLeft (s : State) (g : Gen) : State := { s with
  coils := Vector.ofFn fun c => s.coilLeft g c
  pans := Vector.ofFn fun n => { s.pan n with footprint := s.footprintWithout (homeCoils g) n }
  events := (allSlots.foldl (tellShrunk s (homeCoils g)) s).events
  eventsLost := (allSlots.foldl (tellShrunk s (homeCoils g)) s).eventsLost }

theorem mem_homeCoils {g : Gen} {c : CoilNo} : c ∈ homeCoils g ↔ homeGen c = g := by simp [homeCoils, mem_allCoils]

theorem nodup_homeCoils (g : Gen) : (homeCoils g).Nodup := nodup_allCoils.filter _

theorem coil_shrunk (s : State) (l : List CoilNo) (c : CoilNo) : (s.shrunk l).coil c = (s.without l).coil c := rfl

theorem sound_shrunk {s : State} (hs : s.Sound) (l : List CoilNo) : (s.shrunk l).Sound := by
  rw [← postShrunk_eq]
  exact (path_postShrunk (w := .orders) (D := fun _ => True) s _).sound (sound_without hs l)

/-- The coil records once the coils that the generator drives away from home have started back. -/
theorem coilLeft_eq (s : State) (g : Gen) (c : CoilNo) :
    (if c ∈ allCoils.filter fun c => decide (altGen c = some g ∧ ((s.without (homeCoils g)).coil c).driver = .alternate)
      then relayTo c .home ((s.shrunk (homeCoils g)).coil c) else (s.shrunk (homeCoils g)).coil c) = s.coilLeft g c := by
  simp only [List.mem_filter, decide_eq_true_eq, coil_shrunk, coil_without, mem_allCoils, true_and, mem_homeCoils, State.coilLeft]
  by_cases halt : altGen c = some g
  · obtain ⟨haway, hrelay⟩ := altGen_away c g halt
    simp only [halt, true_and, if_neg haway, if_true]
    exact relayTo_home hrelay (s.coil c)
  · simp [halt]

theorem coilsLeave_of_sound {s : State} (hs : s.Sound) (g : Gen) :
    coilsLeave g s = reportAll (s.robbedBy g) (s.coilsLeft g) ∧ (s.coilsLeft g).Sound := by
  have hshrunk := sound_shrunk hs (homeCoils g)
  have hleft : ((s.shrunk (homeCoils g)).withCoils fun c => s.coilLeft g c) = s.coilsLeft g := by
    simp only [State.shrunk, State.without, State.coilsLeft, withCoils_eq, withPans_eq]
  have hok : ∀ (c : CoilNo) r, r.codeOk = true → (relayTo c .home r).codeOk = true := fun c r hr => (codeOk_relayTo c _ r).trans hr
  have hwork := forEach_editCoil_of_sound (f := fun c => relayTo c .home) hok
    (allCoils.filter fun c => decide (altGen c = some g ∧ ((s.without (homeCoils g)).coil c).driver = .alternate))
    (nodup_allCoils.filter _) hshrunk
  simp only [coilLeft_eq, hleft] at hwork
  have hsound : (s.coilsLeft g).Sound := by
    rw [← hleft]
    refine sound_withCoils hshrunk fun c => ?_
    rw [← coilLeft_eq]
    split
    · exact hok c _ (hshrunk.coils c)
    · exact hshrunk.coils c
  refine ⟨?_, hsound⟩
  rw [coilsLeave, forEach_coilLeaves_of_sound _ (nodup_homeCoils g) hs, Flow.ok_andThen, postShrunk_eq, hwork, Flow.ok_andThen]

theorem robbedBy_eq (s : State) (g : Gen) :
    s.robbedBy g = (allCoils.filter fun c => decide (homeGen c = g) && (s.coil c).state.inLeg).map s.driverGen := by
  rw [State.robbedBy, homeCoils, List.filter_filter]
  exact congrArg _ (List.filter_congr fun c _ => Bool.and_comm _ _)

/-! ## One generator named -/

theorem enableGen_of_sound {s : State} (hs : s.Sound) {g : Gen} (h : (s.desk g).state = .disabled) :
    enableGen g s = .ok { s with
      desks := s.desks.set g { s.desk g with state := .absent }
      coils := Vector.ofFn fun c => if homeGen c = g then { s.coil c with fault := false } else s.coil c } := by
  have hdesk : (s.setDesk g { s.desk g with state := .absent }).Sound := sound_setDesk hs g (hs.orders g)
  rw [enableGen, if_pos h, forEach_editCoil_of_sound (f := fun _ => Coil.repaired) (fun _ _ hr => hr) _ (nodup_homeCoils g) hdesk, withCoils_eq]
  simp only [mem_homeCoils]
  rfl

theorem disableGen_absent {s : State} {g : Gen} (h : (s.desk g).state = .absent) : disableGen g s =
    .ok (((s.discardPartial g).setDesk g { s.desk g with state := .disabled }).postEvent
      ⟨.generatorStopped, s.now % 65536, none, some g, none, some (.stop .disable)⟩) := by
  have hnow : (s.discardPartial g).now = s.now := by
    unfold State.discardPartial
    split <;> rfl
  simp only [disableGen, h]
  rw [State.postStopped, State.event]
  simp only [← hnow]
  rfl

theorem disableGen_stops {s : State} {g : Gen} (hd : (s.desk g).state ≠ .disabled) (ha : (s.desk g).state ≠ .absent) :
    disableGen g s = (stopGen g .disable (s.discardPartial g)).andThen (coilsLeave g) := by
  unfold disableGen
  split
  · next h => exact absurd h hd
  · next h => exact absurd h ha
  · rfl

theorem switchGens_eq (enable disable : List Gen) (s : State) :
    let handle : Gen → State → Flow := fun g x =>
      if g ∈ disable then disableGen g x else if g ∈ enable then enableGen g x else .ok x
    switchGens enable disable s = (((handle 0 s).andThen (handle 1)).andThen (handle 2)).andThen (handle 3) := by
  intro handle
  exact (forEach_gens handle s)

/-- Settles O33: each generator named, its coils and the order of the four. -/
theorem generatorsLeaveAndReturn : Obligations.GeneratorsLeaveAndReturn := by
  unfold Obligations.GeneratorsLeaveAndReturn
  refine ⟨fun s g hs => ?_, fun s g => ?_, fun s g hs => ⟨fun h => if_neg h, enableGen_of_sound hs⟩, switchGens_eq⟩
  · intro home visitor kept told left robbed
    have hhome : home = Coil.leaveHome := funext fun r => (leaveHome_eq r).symm
    have hkept : kept = s.footprintWithout (homeCoils g) := funext fun n => List.filter_congr fun c _ =>
      decide_eq_decide.mpr (by rw [mem_homeCoils])
    have htold : allSlots.foldl (tellShrunk s (homeCoils g)) s = told := by
      unfold tellShrunk
      rw [← hkept]
    have hleft : s.coilsLeft g = left := by
      rw [State.coilsLeft, ← hkept, htold]
      unfold State.coilLeft
      rw [← hhome]
      rfl
    obtain ⟨hwork, hsound⟩ := coilsLeave_of_sound hs g
    rw [robbedBy_eq, hleft] at hwork
    obtain ⟨t, ht⟩ := Run.reported (gs := robbed) (hleft ▸ hsound)
    exact ⟨t, hwork.trans ht.work, ht⟩
  · intro quiet
    have hquiet : quiet = s.discardPartial g := by
      unfold State.discardPartial
      rfl
    rw [hquiet]
    refine ⟨fun h => ?_, disableGen_absent, disableGen_stops⟩
    simp only [disableGen, h]

end Sys2Proof.Machine

/-! PROOFS. What the switching of other generators leaves of a generator's home coils and desk (R10, R14, R15, R156). -/

namespace Sys2Proof.Machine

/-! ## The relation -/

/-- Out of service, or on its way there: OFF, or RELEASING and off pending. -/
def Coil.Gone (r : Coil) : Prop := r.state.isOff = true ∨ ∃ o n, r.state = .releasing o n true

/-- No change of coverage, and none into or out of service. -/
structure Coil.Stays (r q : Coil) : Prop where
  coverage : q.coverage = r.coverage
  gone : q.Gone ↔ r.Gone

theorem Coil.Stays.refl (r : Coil) : r.Stays r := ⟨rfl, .rfl⟩

theorem Coil.Stays.trans {r q p : Coil} (h : r.Stays q) (k : q.Stays p) : r.Stays p :=
  ⟨k.coverage.trans h.coverage, k.gone.trans h.gone⟩

theorem Coil.Stays.of_state {r q : Coil} (hc : q.coverage = r.coverage) (hs : q.state = r.state) : r.Stays q :=
  ⟨hc, by rw [Coil.Gone, Coil.Gone, hs]⟩

/-- No joining, leaving or stopping. -/
structure Desk.Stays (d e : Desk) : Prop where
  lastConfirmed : e.lastConfirmed = d.lastConfirmed
  holdEnd : e.holdEnd = d.holdEnd
  state : e.state = d.state ∨ (d.state.isOut = false ∧ e.state.isOut = false)

theorem Desk.Stays.of_eq {d e : Desk} (h : e = d) : d.Stays e := h ▸ ⟨rfl, rfl, .inl rfl⟩

theorem Desk.Stays.out {d e : Desk} (h : d.Stays e) (hd : d.state.isOut = true) : e.state = d.state :=
  h.state.resolve_right fun ⟨hf, _⟩ => absurd (hd.symm.trans hf) nofun

theorem Desk.Stays.isOut {d e : Desk} (h : d.Stays e) : e.state.isOut = d.state.isOut := by
  rcases h.state with h | ⟨hd, he⟩
  · rw [h]
  · rw [hd, he]

theorem Desk.Stays.trans {d e f : Desk} (h : d.Stays e) (k : e.Stays f) : d.Stays f := by
  refine ⟨k.lastConfirmed.trans h.lastConfirmed, k.holdEnd.trans h.holdEnd, ?_⟩
  cases hd : d.state.isOut with
  | true =>
    have he := h.out hd
    exact .inl ((k.out (by rw [he, hd])).trans he)
  | false => exact .inr ⟨rfl, by rw [k.isOut, h.isOut, hd]⟩

/-- What work that is no business of this generator leaves of its home coils and of its desk. -/
structure Away (g : Gen) (s t : State) : Prop where
  coil : ∀ c, homeGen c = g → (s.coil c).Stays (t.coil c)
  desk : (s.desk g).Stays (t.desk g)

theorem away_frame (g : Gen) : Frame (Away g) where
  refl _ := ⟨fun _ _ => .refl _, .of_eq rfl⟩
  trans h k := ⟨fun c hc => (h.coil c hc).trans (k.coil c hc), h.desk.trans k.desk⟩

section
variable {g : Gen} {s t : State}

theorem Away.of_desk (hc : t.coils = s.coils) (hd : (s.desk g).Stays (t.desk g)) : Away g s t where
  coil c _ := by
    have hcoil : t.coil c = s.coil c := by simp only [State.coil, hc]
    exact hcoil ▸ .refl _
  desk := hd

theorem Away.of_same (hc : t.coils = s.coils) (hd : t.desks = s.desks) : Away g s t :=
  .of_desk hc (.of_eq (by simp only [State.desk, hd]))

theorem away_postEvent (g : Gen) (s : State) (e : Event) : Away g s (s.postEvent e) :=
  .of_same (State.coils_postEvent _ _) (State.desks_postEvent _ _)

theorem away_writeCoil {c : CoilNo} {r : Coil} (h : homeGen c = g → (s.coil c).Stays r) : Away g s (s.writeCoil c r) where
  coil d hd := by
    rw [State.coil_writeCoil]
    split
    · next hdc =>
      cases hdc
      exact (h hd).trans (.of_state rfl rfl)
    · exact .refl _
  desk := .of_eq rfl

/-- The update of a desk that stays. -/
theorem away_setDesk {h : Gen} {d : Desk} (hd : h = g → (s.desk g).Stays d) : Away g s (s.setDesk h d) := by
  refine .of_desk rfl ?_
  rw [State.desk_setDesk]
  split
  · next hg => exact hd hg.symm
  · exact .of_eq rfl

/-! ## Records -/

theorem away_editCoil {c : CoilNo} {f : Coil → Coil} (hf : homeGen c = g → ∀ r, Coil.Stays r (f r)) (s : State) :
    Leads (Away g) s (editCoil c f s) :=
  (away_frame g).andThen ((away_frame g).checkCoil c s) fun t => by
    split
    · exact (away_frame g).here t
    · exact .ok (away_writeCoil fun hc => hf hc _)

theorem away_editPan (n : Slot) (f : Pan → Pan) (s : State) : Leads (Away g) s (editPan n f s) :=
  (away_frame g).andThen ((away_frame g).checkPan n s) fun t => by
    split
    · exact (away_frame g).here t
    · exact .ok (.of_same rfl rfl)

theorem away_rewritePan (n : Slot) (f : Pan → Pan) (s : State) : Leads (Away g) s (rewritePan n f s) :=
  (away_frame g).andThen ((away_frame g).checkPan n s) fun _ => .ok (.of_same rfl rfl)

theorem stays_relayTo (c : CoilNo) (p : Position) (r : Coil) : r.Stays (relayTo c p r) := by
  unfold relayTo
  split
  · split
    · next h => exact ⟨rfl, by simp [Coil.Gone, h, CoilState.isOff]⟩
    · next h => exact ⟨rfl, by simp [Coil.Gone, h, CoilState.isOff]⟩
    · exact .refl r
  · exact .refl r

theorem stays_leaveOrder (b : Bool) (r : Coil) : r.Stays (r.leaveOrder b) := by
  unfold Coil.leaveOrder
  split
  case h_4 h => exact ⟨rfl, by simp [Coil.Gone, h, CoilState.isOff, Coil.atRest]⟩
  case h_5 h => split <;> exact ⟨rfl, by simp [Coil.Gone, h, CoilState.isOff]⟩
  case h_6 => exact .refl r
  all_goals next h => exact ⟨rfl, by simp [Coil.Gone, h, CoilState.isOff]⟩

theorem stays_taken (n : Byte) (r : Coil) : r.Stays (r.taken n) := by
  unfold Coil.taken
  split
  · next h => exact ⟨rfl, by simp [Coil.Gone, h, CoilState.isOff]⟩
  · exact .refl r

/-! ## Releases and builds -/

theorem away_followPlan (c : CoilNo) (s : State) : Leads (Away g) s (followPlan c s) := by
  unfold followPlan
  split
  · refine (away_frame g).andThen ((away_frame g).checkPan _ s) fun t => ?_
    split
    · split
      · exact away_editCoil (fun _ => stays_relayTo c _) t
      · exact (away_frame g).here t
    · exact (away_frame g).here t
  · exact (away_frame g).here s

theorem away_releaseCoils (h : Gen) (d : Bool) (s : State) : Leads (Away g) s (releaseCoils h d s) := by
  unfold releaseCoils
  split
  · refine (away_frame g).forEach (fun c t => ?_) _ s
    exact (away_frame g).andThen (away_editCoil (fun _ => stays_leaveOrder _) t) ((away_frame g).doIf _ (away_followPlan c))
  · exact (away_frame g).here s

theorem away_countEnergy (h : Gen) (s : State) : Leads (Away g) s (countEnergy h s) := by
  unfold countEnergy
  split
  · refine (away_frame g).forEach (fun l t => ?_) _ s
    split
    · exact away_rewritePan _ _ t
    · exact (away_frame g).here t
  · exact (away_frame g).here s

theorem away_releaseOrder (h : Gen) (d : Bool) (s : State) : Leads (Away g) s (releaseOrder h d s) :=
  (away_frame g).andThen ((away_frame g).checkOrder h s) fun t =>
    (away_frame g).andThen (away_countEnergy h t) (away_releaseCoils h d)

theorem away_dropOrderPosting (h : Gen) (s : State) : Away g s (s.dropOrderPosting h) := by
  refine .of_desk ?_ ?_
  · unfold State.dropOrderPosting
    split
    · exact State.coils_postEvent _ _
    · rfl
  · rw [desk_dropOrderPosting]
    split
    · next hg => exact hg ▸ ⟨rfl, rfl, .inl rfl⟩
    · exact .of_eq rfl

theorem away_writeOrder (h : Gen) (legs : List Leg) (s : State) : Away g s (s.writeOrder h legs) := by
  refine .of_desk rfl ?_
  rw [desk_writeOrder]
  split
  · next hg => exact hg ▸ ⟨rfl, rfl, .inl rfl⟩
  · exact .of_eq rfl

theorem away_takeCoils (h : Gen) (legs : List Leg) (s : State) : Leads (Away g) s (takeCoils h legs s) :=
  (away_frame g).forEach (fun _ t => away_editCoil (fun _ => stays_taken _) t) _ s

theorem away_postPowers (h : Gen) (before s : State) : Away g s (postPowers h before s) :=
  .of_same (postPowers_keeps State.coils State.coils_postEvent h before s) (postPowers_keeps State.desks State.desks_postEvent h before s)

theorem away_buildOrder (h : Gen) (s : State) : Leads (Away g) s (buildOrder h s) := by
  have hf := away_frame g
  refine hf.andThen (hf.readForBuild s) fun t => hf.andThen (hf.doIf _ hf.checkLevels t) fun u => ?_
  refine hf.andThen (hf.forEach (fun n x => away_editPan n _ x) _ u) fun v => ?_
  exact hf.andThen (hf.after (away_writeOrder h _ v) (away_takeCoils h _ _)) fun w => .ok (away_postPowers h u w)

/-! ## Reports -/

theorem away_buildForWaiting (h : Gen) (entry : Byte) (s : State) : Leads (Away g) s (buildForWaiting h entry s) :=
  (away_frame g).andThen (away_buildOrder h s) fun _ => .ok (away_setDesk fun hg => hg ▸ ⟨rfl, rfl, .inl rfl⟩)

theorem away_rebuild (h : Gen) (s : State) : Leads (Away g) s (rebuild h s) := by
  refine (away_frame g).andThen (away_releaseCoils h false s) fun t => (away_frame g).after (away_dropOrderPosting h t) ?_
  simp only
  split
  · exact .ok (away_setDesk fun hg => hg ▸ ⟨rfl, rfl, .inl rfl⟩)
  · exact away_buildForWaiting h _ _

theorem away_requestYield (h : Gen) (s : State) : Away g s (s.requestYield h) := by
  unfold State.requestYield
  split
  · next hst => exact away_setDesk fun hg => hg ▸ ⟨rfl, rfl, .inr ⟨hst ▸ rfl, rfl⟩⟩
  · exact (away_frame g).refl s

theorem away_reportDown (h : Gen) (s : State) : Leads (Away g) s (reportDown h s) := by
  refine (away_frame g).andThen ((away_frame g).checkOrder h s) fun t => ?_
  split
  · exact (away_frame g).here t
  · split
    · exact .ok (away_requestYield h t)
    · exact away_rebuild h t

theorem away_reportAll (gs : List Gen) (s : State) : Leads (Away g) s (reportAll gs s) :=
  (away_frame g).forEach away_reportDown _ s

/-! ## The switching of another generator -/

theorem away_coilLeaves {c : CoilNo} (h : homeGen c ≠ g) (s : State) : Leads (Away g) s (coilLeaves c s) := by
  refine (away_frame g).andThen (away_editCoil (fun hc => absurd hc h) s) fun t => ?_
  split
  · split
    · exact away_editPan _ _ t
    · exact (away_frame g).here t
  · exact (away_frame g).here t

theorem away_postShrunk (before s : State) : Away g s (postShrunk before s) :=
  (away_frame g).foldl (fun t n => by
    split
    · exact away_postEvent g t _
    · exact (away_frame g).refl t) _ s

theorem away_coilsLeave {h : Gen} (hg : h ≠ g) (s : State) : Leads (Away g) s (coilsLeave h s) := by
  have hf := away_frame g
  refine hf.andThen (hf.forEach_of _ s fun c hc t _ => away_coilLeaves (mem_homeCoils.mp hc ▸ hg) t) fun t => ?_
  refine hf.after (away_postShrunk s t) (hf.andThen ?_ (away_reportAll _))
  exact hf.forEach (fun c u => away_editCoil (fun _ => stays_relayTo c _) u) _ _

theorem away_discardPartial (h : Gen) (s : State) : Away g s (s.discardPartial h) := by
  unfold State.discardPartial
  split
  · exact .of_same rfl rfl
  · exact (away_frame g).refl s

theorem away_finishStop {h : Gen} (hg : h ≠ g) (cause : StopCause) (s : State) : Away g s (s.finishStop h cause) := by
  refine .of_desk (finishStop_keeps s h cause).coils (.of_eq ?_)
  rw [desk_finishStop, if_neg hg.symm]

theorem away_stopGen {h : Gen} (hg : h ≠ g) (cause : StopCause) (s : State) : Leads (Away g) s (stopGen h cause s) :=
  (away_frame g).after (away_setDesk fun h => absurd h hg)
    ((away_frame g).andThen (away_releaseOrder h _ _) fun _ => .ok (away_finishStop hg cause _))

theorem away_disableGen {h : Gen} (hg : h ≠ g) (s : State) : Leads (Away g) s (disableGen h s) := by
  unfold disableGen
  have hdiscard := away_discardPartial (g := g) h s
  split
  · exact (away_frame g).here s
  · exact .ok ((away_frame g).trans hdiscard ((away_frame g).trans (away_setDesk fun h => absurd h hg) (away_postEvent g _ _)))
  · exact (away_frame g).after hdiscard ((away_frame g).andThen (away_stopGen hg _ _) (away_coilsLeave hg))

theorem away_enableGen {h : Gen} (hg : h ≠ g) (s : State) : Leads (Away g) s (enableGen h s) := by
  unfold enableGen
  split
  · exact (away_frame g).after (away_setDesk fun h => absurd h hg)
      ((away_frame g).forEach (fun c t => away_editCoil (f := Coil.repaired) (fun _ _ => .of_state rfl rfl) t) _ _)
  · exact (away_frame g).here s

end

end Sys2Proof.Machine

/-! PROOFS. ENABLE GENERATORS whole: what the four leave of each generator, of its home coils and of the ports (R15, R156, R157,
R186). -/

namespace Sys2Proof.Machine

/-! ## Work in turn that completes -/

theorem andThen_eq_ok {f : Flow} {k : Op} {t : State} (h : f.andThen k = .ok t) : ∃ x, f = .ok x ∧ k x = .ok t := by
  cases f with
  | ok x => exact ⟨x, rfl, h⟩
  | safe v => cases h

theorem forEach_append_ok {α : Type} {work : α → Op} : ∀ {l r : List α} {s t : State}, forEach work (l ++ r) s = .ok t →
    ∃ x, forEach work l s = .ok x ∧ forEach work r x = .ok t
  | [], _, s, _, h => ⟨s, rfl, h⟩
  | a :: l, r, s, t, h => by
    obtain ⟨y, hy, hrest⟩ := andThen_eq_ok h
    obtain ⟨x, hx, hr⟩ := forEach_append_ok (l := l) hrest
    exact ⟨x, by rw [forEach, hy, Flow.ok_andThen, hx], hr⟩

theorem Frame.forEach_ok {R : State → State → Prop} (h : Frame R) {α : Type} {work : α → Op} : ∀ (l : List α) {s t : State},
    (∀ a ∈ l, ∀ x y, work a x = .ok y → R x y) → Machine.forEach work l s = .ok t → R s t
  | [], s, _, _, ht => Flow.ok.inj ht ▸ h.refl s
  | a :: l, _, _, hwork, ht => by
    obtain ⟨y, hy, hrest⟩ := andThen_eq_ok ht
    exact h.trans (hwork a List.mem_cons_self _ _ hy) (Frame.forEach_ok h l (fun b hb => hwork b (List.mem_cons_of_mem _ hb)) hrest)

theorem gen_split : ∀ g : Gen, ∃ l r : List Gen, allGens = l ++ g :: r ∧ g ∉ l ∧ g ∉ r := by
  intro g
  obtain ⟨l, r, h⟩ := List.append_of_mem (mem_allGens g)
  have hnodup := h ▸ nodup_allGens
  obtain ⟨_, hcons, hdisjoint⟩ := List.nodup_append.mp hnodup
  exact ⟨l, r, h, fun hl => hdisjoint g hl g List.mem_cons_self rfl, (List.nodup_cons.mp hcons).1⟩

/-! ## One generator of the four -/

/-- What switchGens does for one generator. -/
def switchGen (enable disable : List Gen) (g : Gen) : Op := fun s =>
  if g ∈ disable then disableGen g s else if g ∈ enable then enableGen g s else .ok s

section
variable {enable disable : List Gen} {g : Gen} {s t x y : State}

theorem run_switchGen {D : Gen → Prop} (h : Gen) (hd : D h) (hn : HoldsNone D s) : Run .service D s (switchGen enable disable h s) := by
  unfold switchGen
  split
  · exact run_disableGen h s hd hn
  · split
    · exact run_enableGen h s hd
    · exact .here s

theorem switchGens_of_sound (enable disable : List Gen) (hs : s.Sound) : ∃ t, switchGens enable disable s = .ok t ∧ t.Sound ∧ Unmoved s t := by
  have hrun : Run .service (fun _ => True) s (switchGens enable disable s) :=
    Run.forEach (fun h x => run_switchGen (enable := enable) (disable := disable) (s := x) h trivial (holdsNone_all x)) _ s
  obtain ⟨t, ht, hpath, hsound⟩ := hrun.completes hs
  exact ⟨t, ht, hsound, hpath.unmoved⟩

theorem away_switchGen {h : Gen} (hg : h ≠ g) (he : switchGen enable disable h x = .ok y) : Away g x y := by
  unfold switchGen at he
  split at he
  · exact (away_disableGen hg x).of_ok he
  · split at he
    · exact (away_enableGen hg x).of_ok he
    · exact Flow.ok.inj he ▸ (away_frame g).refl x

theorem away_switchGens (l : List Gen) (hg : g ∉ l) (h : forEach (switchGen enable disable) l x = .ok y) : Away g x y :=
  (away_frame g).forEach_ok l (fun _ hl _ _ he => away_switchGen (fun e => hg (e ▸ hl)) he) h

/-- A desk with no order is not touched as other generators are switched. -/
def Spared (g : Gen) (s t : State) : Prop := (s.desk g).order = none → t.desk g = s.desk g

theorem spared_frame (g : Gen) : Frame (Spared g) where
  refl _ _ := rfl
  trans h k hn := (k (by rw [h hn]; exact hn)).trans (h hn)

theorem spared_switchGens (l : List Gen) (hg : g ∉ l) (h : forEach (switchGen enable disable) l x = .ok y) : Spared g x y :=
  (spared_frame g).forEach_ok l (fun a ha x y he hn => by
    have hrun := run_switchGen (s := x) (enable := enable) (disable := disable) (D := fun k => k ≠ g) a (fun e => hg (e ▸ ha))
      fun k hk => not_not.mp hk ▸ hn
    obtain ⟨t, ht, hok | ⟨b, _, hsafe⟩⟩ := hrun
    · cases hok.symm.trans he
      exact ht.desk fun hk => hk rfl
    · cases he.symm.trans hsafe) h

/-- The four, those before one generator, that one and those after it. -/
theorem switchGens_parts (g : Gen) (h : switchGens enable disable s = .ok t) : ∃ l r x y, g ∉ l ∧ g ∉ r ∧
    forEach (switchGen enable disable) l s = .ok x ∧ switchGen enable disable g x = .ok y ∧
      forEach (switchGen enable disable) r y = .ok t := by
  obtain ⟨l, r, hsplit, hl, hr⟩ := gen_split g
  have hall : forEach (switchGen enable disable) (l ++ g :: r) s = .ok t := hsplit ▸ h
  obtain ⟨x, hx, hrest⟩ := forEach_append_ok hall
  obtain ⟨y, hy, htail⟩ := andThen_eq_ok hrest
  exact ⟨l, r, x, y, hl, hr, hx, hy, htail⟩

theorem switchGens_split (g : Gen) (hs : s.Sound) (h : switchGens enable disable s = .ok t) : ∃ x y, x.Sound ∧ Away g s x ∧
    switchGen enable disable g x = .ok y ∧ Away g y t ∧ Spared g y t := by
  obtain ⟨l, r, x, y, hl, hr, hx, hy, htail⟩ := switchGens_parts g h
  obtain ⟨x', hx', _, hsound⟩ := (Run.forEach (D := fun _ => True) (fun h x =>
    run_switchGen (enable := enable) (disable := disable) (s := x) h trivial (holdsNone_all x)) l s).completes hs
  cases hx.symm.trans hx'
  exact ⟨x, y, hsound, away_switchGens l hl hx, hy, away_switchGens r hr htail, spared_switchGens r hr htail⟩

end

/-! ## A generator that is disabled -/

theorem gone_leaveHome (r : Coil) : r.leaveHome.Gone := by
  rw [leaveHome_eq]
  unfold Coil.Gone
  cases hst : r.state with
  | driven o n => exact .inr ⟨none, n, rfl⟩
  | transfer o n p => exact .inr ⟨none, n, rfl⟩
  | releasing o n b => exact .inr ⟨none, n, rfl⟩
  | off m => exact .inl (by simp only [hst, CoilState.isOff])
  | _ => exact .inl rfl

theorem coverage_leaveHome {r : Coil} (h : ¬ r.Gone) : r.leaveHome.coverage = none := by
  rw [leaveHome_eq]
  cases hst : r.state with
  | off m => exact absurd (.inl (by rw [hst]; rfl)) h
  | _ => rfl

/-- The desk of a generator that is disabled in service, or STOPPED. -/
def Desk.disabled (d : Desk) : Desk := { d with
  state := .disabled, desk := .empty, repeats := 0, order := none, lease := none, yield := none, collection := none, hold := none }

theorem desk_coilsLeft (s : State) (g h : Gen) : (s.coilsLeft g).desk h = s.desk h := by
  simp only [State.coilsLeft, State.desk]

theorem coil_coilsLeft_home (s : State) {g : Gen} {c : CoilNo} (h : homeGen c = g) : (s.coilsLeft g).coil c = (s.coil c).leaveHome := by
  simp only [State.coilsLeft, State.coil, Fin.getElem_fin, Vector.getElem_ofFn, State.coilLeft, Fin.eta, if_pos h]

theorem desk_discardPartial (s : State) (g h : Gen) : (s.discardPartial g).desk h = s.desk h := by
  unfold State.discardPartial
  split
  · exact State.desk_setPort _ _ _ _
  · rfl

/-- The stop of a generator that is disabled. -/
theorem stopDisabled {x : State} (hx : x.Sound) (g : Gen) : ∃ v, stopGen g .disable (x.discardPartial g) = .ok v ∧ v.Sound ∧
    v.desk g = (x.desk g).disabled ∧ ∀ c, homeGen c = g → (x.coil c).Stays (v.coil c) := by
  obtain ⟨s1, h1, hrecords, hstop, hsound⟩ := stopGen_of_sound ((path_discardPartial (D := fun _ => True) x g).sound hx) g .disable
  refine ⟨_, hstop, hsound, ?_, fun c hc => ?_⟩
  · rw [desk_stopped hrecords, desk_discardPartial]
    simp only [if_true]
    rfl
  · have hsame : (s1.finishStop g .disable).coil c = s1.coil c := by simp only [State.coil, (finishStop_keeps s1 g .disable).coils]
    have hquiet : Away g x (x.discardPartial g) := away_discardPartial g x
    rw [hsame]
    exact (hquiet.coil c hc).trans (((away_releaseOrder g _ _).of_ok h1).coil c hc)

theorem disableGen_of_sound {x : State} {g : Gen} (hx : x.Sound) (hin : (x.desk g).state.isOut = false) : ∃ y,
    disableGen g x = .ok y ∧ y.desk g = (x.desk g).disabled ∧
      ∀ c, homeGen c = g → (y.coil c).Gone ∧ (¬ (x.coil c).Gone → (y.coil c).coverage = none) := by
  have hd : (x.desk g).state ≠ .disabled := fun h => by rw [h] at hin; cases hin
  have ha : (x.desk g).state ≠ .absent := fun h => by rw [h] at hin; cases hin
  obtain ⟨v, hstop, hsound, hstopped, hcoil⟩ := stopDisabled hx g
  obtain ⟨hleave, hleft⟩ := coilsLeave_of_sound hsound g
  have hleftDesk : (v.coilsLeft g).desk g = (x.desk g).disabled := (desk_coilsLeft v g g).trans hstopped
  have hnone : HoldsNone (fun k => k ≠ g) (v.coilsLeft g) := fun k hk => by
    rw [not_not.mp hk, hleftDesk]
    rfl
  obtain ⟨y, hy, hpath, _⟩ := (run_reportAll (w := .orders) (D := fun k => k ≠ g) (v.robbedBy g) (v.coilsLeft g)
    hnone).completes hleft
  have haway : Away g (v.coilsLeft g) y := (away_reportAll _ _).of_ok hy
  refine ⟨y, ?_, (hpath.desk fun hk => hk rfl).trans hleftDesk, fun c hc => ?_⟩
  · rw [disableGen_stops hd ha, hstop, Flow.ok_andThen, hleave, hy]
  · have hstays := haway.coil c hc
    rw [coil_coilsLeft_home v hc] at hstays
    refine ⟨hstays.gone.mpr (gone_leaveHome _), fun hgone => ?_⟩
    rw [hstays.coverage]
    exact coverage_leaveHome fun h => hgone ((hcoil c hc).gone.mp h)

section
variable {enable disable : List Gen} {g : Gen} {s t : State} (hs : s.Sound) (ht : switchGens enable disable s = .ok t)
include hs ht

theorem state_switched_disable (hg : g ∈ disable) : (t.desk g).state = .disabled := by
  obtain ⟨x, y, hx, _, hy, haway, _⟩ := switchGens_split g hs ht
  rw [switchGen, if_pos hg] at hy
  have hdisabled : (y.desk g).state = .disabled := by
    cases hst : (x.desk g).state with
    | disabled =>
      simp only [disableGen, hst] at hy
      rw [← Flow.ok.inj hy, hst]
    | absent =>
      rw [disableGen_absent hst] at hy
      rw [← Flow.ok.inj hy, State.desk_postEvent, State.desk_setDesk_self]
    | _ =>
      obtain ⟨y', hy', hdesk, _⟩ := disableGen_of_sound hx (g := g) (by rw [hst]; rfl)
      rw [← Flow.ok.inj (hy'.symm.trans hy), hdesk]
      rfl
  rw [haway.desk.out (hdisabled ▸ rfl), hdisabled]

theorem state_switched_enable (hd : g ∉ disable) (he : g ∈ enable) (hst : (s.desk g).state = .disabled) : (t.desk g).state = .absent := by
  obtain ⟨x, y, hx, haway, hy, haway', _⟩ := switchGens_split g hs ht
  have hxst : (x.desk g).state = .disabled := (haway.desk.out (hst ▸ rfl)).trans hst
  rw [switchGen, if_neg hd, if_pos he, enableGen_of_sound hx hxst] at hy
  have habsent : (y.desk g).state = .absent := by
    rw [← Flow.ok.inj hy]
    simp [State.desk]
  rw [haway'.desk.out (habsent ▸ rfl), habsent]

theorem switched_disabled (hg : g ∈ disable) (hst : (s.desk g).state.inService = true ∨ (s.desk g).state = .stopped) :
    t.desk g = (s.desk g).disabled ∧
      ∀ c, homeGen c = g → (t.coil c).Gone ∧ (¬ (s.coil c).Gone → (t.coil c).coverage = none) := by
  obtain ⟨x, y, hx, haway, hy, haway', hspared⟩ := switchGens_split g hs ht
  have hin : (s.desk g).state.isOut = false := by
    rcases hst with h | h
    · exact isOut_of_inService h
    · rw [h]; rfl
  have hxin : (x.desk g).state.isOut = false := haway.desk.isOut.trans hin
  rw [switchGen, if_pos hg] at hy
  obtain ⟨y', hy', hdesk, hcoils⟩ := disableGen_of_sound hx hxin
  cases hy'.symm.trans hy
  have hkept : (x.desk g).disabled = (s.desk g).disabled := by
    unfold Desk.disabled
    rw [haway.desk.lastConfirmed, haway.desk.holdEnd]
  refine ⟨(hspared (by rw [hdesk]; rfl)).trans (hdesk.trans hkept), fun c hc => ?_⟩
  obtain ⟨hgone, hnone⟩ := hcoils c hc
  refine ⟨(haway'.coil c hc).gone.mpr hgone, fun h => ?_⟩
  rw [(haway'.coil c hc).coverage]
  exact hnone fun hx => h ((haway.coil c hc).gone.mp hx)

end

end Sys2Proof.Machine

/-! PROOFS. The ports, the enabling alone, and ENABLE GENERATORS as a request (R156, R157, R186). -/

namespace Sys2Proof.Machine

/-! ## The ports (R186) -/

/-- A port whose partial message, if any, is discarded. -/
def Port.quiet (p : Port) : Port :=
  match p.rx with
  | .receiving _ _ _ => { p with rx := .idle }
  | _ => p

theorem quiet_receiving {p : Port} (h : ∃ bytes causes gap, p.rx = .receiving bytes causes gap) : p.quiet = { p with rx := .idle } := by
  obtain ⟨bytes, causes, gap, h⟩ := h
  simp only [Port.quiet, h]

theorem quiet_other {p : Port} (h : ¬ ∃ bytes causes gap, p.rx = .receiving bytes causes gap) : p.quiet = p := by
  unfold Port.quiet
  split
  · next bytes causes gap hp => exact absurd ⟨bytes, causes, gap, hp⟩ h
  · rfl

theorem port_discardPartial (s : State) (g : Gen) (l : Link) :
    (s.discardPartial g).port l = if l = .gl g then (s.port l).quiet else s.port l := by
  unfold State.discardPartial Port.quiet
  by_cases hl : l = .gl g
  · subst hl
    split <;> simp [*]
  · rw [if_neg hl]
    split
    · rw [State.port_setPort, if_neg hl]
    · rfl

theorem disabled_iff_of_stays {d e : Desk} (h : d.Stays e) : e.state = .disabled ↔ d.state = .disabled := by
  constructor <;> intro hst
  · have hout : d.state.isOut = true := by rw [← h.isOut, hst]; rfl
    exact (h.out hout).symm.trans hst
  · exact (h.out (by rw [hst]; rfl)).trans hst

section
variable {enable disable : List Gen} {g : Gen} {l : Link} {s t x y : State}

theorem port_switchGen (h : switchGen enable disable g x = .ok y) : y.port l =
    if l = .gl g ∧ g ∈ disable ∧ (x.desk g).state ≠ .disabled then (x.port l).quiet else x.port l := by
  unfold switchGen at h
  by_cases hd : g ∈ disable
  · rw [if_pos hd] at h
    have hports := ports_disableGen g x
    rw [h] at hports
    by_cases hst : (x.desk g).state = .disabled
    · rw [if_pos hst] at hports
      rw [if_neg fun hc => hc.2.2 hst]
      exact port_of_ports hports l
    · rw [if_neg hst] at hports
      rw [show y.port l = (x.discardPartial g).port l from port_of_ports hports l, port_discardPartial]
      simp only [hd, hst, ne_eq, not_false_eq_true, and_self, and_true]
  · rw [if_neg fun hc => hd hc.2.1]
    rw [if_neg hd] at h
    split at h
    · have hports := portsKept_enableGen g x
      rw [h] at hports
      exact port_of_ports hports l
    · rw [Flow.ok.inj h]

theorem port_switchGens (gs : List Gen) (hl : ∀ g ∈ gs, l ≠ .gl g) (h : forEach (switchGen enable disable) gs x = .ok y) :
    y.port l = x.port l :=
  Frame.forEach_ok (R := fun s t => t.port l = s.port l) ⟨fun _ => rfl, fun h k => k.trans h⟩ gs
    (fun g hg _ _ he => (port_switchGen he).trans (if_neg fun hc => hl g hg hc.1)) h

theorem port_switched_gl (h : switchGens enable disable s = .ok t) : t.port (.gl g) =
    if g ∈ disable ∧ (s.desk g).state ≠ .disabled then (s.port (.gl g)).quiet else s.port (.gl g) := by
  obtain ⟨before, after, x, y, hbefore, hafter, hx, hy, ht⟩ := switchGens_parts g h
  have hother : ∀ gs : List Gen, g ∉ gs → ∀ k ∈ gs, Link.gl g ≠ .gl k := fun gs hg k hk he => hg (Link.gl.inj he ▸ hk)
  have hst := not_congr (disabled_iff_of_stays (away_switchGens before hbefore hx).desk)
  rw [port_switchGens after (hother after hafter) ht, port_switchGen hy, port_switchGens before (hother before hbefore) hx]
  exact if_congr (by rw [ne_eq, hst, eq_self, true_and]) rfl rfl

theorem port_switched_other (hl : ∀ g, l ≠ .gl g) (h : switchGens enable disable s = .ok t) : t.port l = s.port l :=
  port_switchGens allGens (fun g _ => hl g) h

end

/-! ## Enabling alone (R157) -/

/-- The state with the DISABLED ones of these generators enabled. -/
def State.enabled (s : State) (p : Gen → Bool) : State := { s with
  desks := Vector.ofFn fun g => if p g = true ∧ (s.desk g).state = .disabled then { s.desk g with state := .absent } else s.desk g
  coils := Vector.ofFn fun c => if p (homeGen c) = true ∧ (s.desk (homeGen c)).state = .disabled
    then { s.coil c with fault := false } else s.coil c }

theorem desk_enabled (s : State) (p : Gen → Bool) (g : Gen) : (s.enabled p).desk g =
    if p g = true ∧ (s.desk g).state = .disabled then { s.desk g with state := .absent } else s.desk g := by
  simp only [State.enabled, State.desk, Fin.getElem_fin, Vector.getElem_ofFn, Fin.eta]

theorem coil_enabled (s : State) (p : Gen → Bool) (c : CoilNo) : (s.enabled p).coil c =
    if p (homeGen c) = true ∧ (s.desk (homeGen c)).state = .disabled then { s.coil c with fault := false } else s.coil c := by
  simp only [State.enabled, State.coil, Fin.getElem_fin, Vector.getElem_ofFn, Fin.eta]

theorem enabled_none {s : State} {p : Gen → Bool} (h : ∀ g, p g = true → (s.desk g).state ≠ .disabled) : s.enabled p = s := by
  have hno : ∀ g, ¬ (p g = true ∧ (s.desk g).state = .disabled) := fun g hg => h g hg.1 hg.2
  have hdesks : Vector.ofFn s.desk = s.desks := Vector.ext fun i hi => by
    rw [Vector.getElem_ofFn]
    rfl
  have hcoils : Vector.ofFn s.coil = s.coils := Vector.ext fun i hi => by
    rw [Vector.getElem_ofFn]
    rfl
  simp only [State.enabled, if_neg (hno _), hdesks, hcoils]

/-- One lot of generators enabled after another. -/
theorem enabled_enabled (s : State) (p q : Gen → Bool) : (s.enabled p).enabled q = s.enabled fun g => p g || q g := by
  have hdesk : ∀ g, (if q g = true ∧ ((s.enabled p).desk g).state = .disabled then { (s.enabled p).desk g with state := .absent }
      else (s.enabled p).desk g) =
      if (p g || q g) = true ∧ (s.desk g).state = .disabled then { s.desk g with state := .absent } else s.desk g := fun g => by
    rw [desk_enabled]
    by_cases hst : (s.desk g).state = .disabled <;> cases p g <;> cases q g <;> simp [hst]
  have hcoil : ∀ c, (if q (homeGen c) = true ∧ ((s.enabled p).desk (homeGen c)).state = .disabled
      then { (s.enabled p).coil c with fault := false } else (s.enabled p).coil c) =
      if (p (homeGen c) || q (homeGen c)) = true ∧ (s.desk (homeGen c)).state = .disabled
        then { s.coil c with fault := false } else s.coil c := fun c => by
    rw [desk_enabled, coil_enabled]
    by_cases hst : (s.desk (homeGen c)).state = .disabled <;> cases p (homeGen c) <;> cases q (homeGen c) <;> simp [hst]
  conv_lhs => rw [State.enabled, funext hdesk, funext hcoil]
  simp only [State.enabled]

theorem set_desks_eq (s : State) (g : Gen) (d : Desk) : s.desks.set g d = Vector.ofFn fun h => if h = g then d else s.desk h := by
  refine Vector.ext fun i hi => ?_
  rw [Vector.getElem_set, Vector.getElem_ofFn]
  exact if_congr (by rw [Fin.ext_iff, eq_comm]) rfl rfl

theorem switchGen_enable {s : State} (hs : s.Sound) (enable : List Gen) (g : Gen) :
    switchGen enable [] g s = .ok (s.enabled fun h => decide (h = g ∧ g ∈ enable)) := by
  rw [switchGen, if_neg List.not_mem_nil]
  by_cases he : g ∈ enable
  · rw [if_pos he]
    by_cases hst : (s.desk g).state = .disabled
    · have hdesks : (fun h => if h = g then { s.desk g with state := .absent } else s.desk h) = fun h =>
          if decide (h = g ∧ g ∈ enable) = true ∧ (s.desk h).state = .disabled then { s.desk h with state := .absent } else s.desk h :=
        funext fun h => by
          by_cases hg : h = g
          · simp [hg, he, hst]
          · simp [hg]
      have hcoils : (fun c => if homeGen c = g then { s.coil c with fault := false } else s.coil c) = fun c =>
          if decide (homeGen c = g ∧ g ∈ enable) = true ∧ (s.desk (homeGen c)).state = .disabled
            then { s.coil c with fault := false } else s.coil c :=
        funext fun c => by
          by_cases hg : homeGen c = g
          · simp [hg, he, hst]
          · simp [hg]
      rw [enableGen_of_sound hs hst, set_desks_eq, hdesks, hcoils, State.enabled]
    · rw [enableGen, if_neg hst, enabled_none fun h hh => (of_decide_eq_true hh).1 ▸ hst]
  · rw [if_neg he, enabled_none fun h hh => absurd (of_decide_eq_true hh).2 he]

theorem sound_enabled {s : State} (hs : s.Sound) (p : Gen → Bool) : (s.enabled p).Sound where
  coils c := by
    rw [coil_enabled]
    split
    · exact hs.coils c
    · exact hs.coils c
  pans n := by simpa only [State.enabled, State.pan] using hs.pans n
  orders g := by
    rw [desk_enabled]
    split
    · exact hs.orders g
    · exact hs.orders g
  levels := by simpa only [State.enabled] using hs.levels
  marks := by simpa only [State.enabled] using hs.marks

theorem forEach_enable (enable : List Gen) : ∀ (l : List Gen) {s : State}, s.Sound →
    forEach (switchGen enable []) l s = .ok (s.enabled fun g => decide (g ∈ l ∧ g ∈ enable))
  | [], s, _ => congrArg Flow.ok (enabled_none fun g hg => by simp at hg).symm
  | g :: l, s, hs => by
    rw [forEach, switchGen_enable hs, Flow.ok_andThen, forEach_enable enable l (sound_enabled hs _), enabled_enabled]
    refine congrArg (fun p => Flow.ok (s.enabled p)) (funext fun h => ?_)
    by_cases hg : h = g
    · subst hg
      by_cases he : h ∈ enable <;> simp [he]
    · simp [hg]

theorem switchGens_enable {s : State} (hs : s.Sound) (enable : List Gen) :
    switchGens enable [] s = .ok (s.enabled fun g => decide (g ∈ enable)) :=
  (forEach_enable enable allGens hs).trans (by simp only [mem_allGens, true_and])

end Sys2Proof.Machine

/-! PROOFS. ENABLE GENERATORS as a request (R156, R157, R186). -/

namespace Sys2Proof.Machine

theorem mem_maskGens {m : Byte} {g : Gen} : g ∈ maskGens m ↔ m.getLsbD g.val = true := by
  simp only [maskGens, List.mem_filter, mem_allGens, true_and]

theorem maskGens_zero : maskGens 0 = [] := by decide

theorem masks_apart {e d : Byte} (h : e &&& d = 0) {i : Nat} (he : e.getLsbD i = true) : d.getLsbD i ≠ true := by
  intro hd
  have hand : (e &&& d).getLsbD i = true := by rw [BitVec.getLsbD_and, he, hd]; rfl
  rw [h] at hand
  simp at hand

section
variable {s : State} {e d : Byte}

/-- ENABLE GENERATORS evaluates once when some generator becomes DISABLED. -/
theorem enableGens_eq (s : State) (e d : Byte) : enableGens (maskGens e) (maskGens d) s =
    (switchGens (maskGens e) (maskGens d) s).andThen fun x =>
      (if ∃ g : Gen, d.getLsbD g.val = true ∧ (s.desk g).state ≠ .disabled then evaluate x else Flow.ok x).andThen (settle s) := by
  have hleaving : ((maskGens d).any fun g => decide ((s.desk g).state ≠ .disabled)) = true ↔
      ∃ g : Gen, d.getLsbD g.val = true ∧ (s.desk g).state ≠ .disabled := by
    rw [List.any_eq_true]
    exact exists_congr fun g => and_congr mem_maskGens decide_eq_true_iff
  unfold enableGens doIf
  simp only [hleaving]

theorem serve_enable (hs : s.safe = false) (he : e.toNat < 16) (hd : d.toNat < 16) (h : e &&& d = 0) :
    serve .enableGenerators .pl [e, d] s = ((enableGens (maskGens e) (maskGens d) s).state,
      .done (allGens.map fun g => ((enableGens (maskGens e) (maskGens d) s).state.desk g).state.code)) := by
  simp [serve, serveEnable, hs, h, he, hd]

/-- The port of a link: discarded of its partial message when its generator becomes DISABLED. -/
theorem port_switched {t : State} (ht : switchGens (maskGens e) (maskGens d) s = .ok t) (l : Link) :
    ((∃ g : Gen, l = .gl g ∧ d.getLsbD g.val = true ∧ (s.desk g).state ≠ .disabled) → t.port l = (s.port l).quiet) ∧
    (¬ (∃ g : Gen, l = .gl g ∧ d.getLsbD g.val = true ∧ (s.desk g).state ≠ .disabled) → t.port l = s.port l) := by
  refine ⟨fun ⟨g, hl, hd, hst⟩ => ?_, fun h => ?_⟩
  · rw [hl, port_switched_gl ht, if_pos ⟨mem_maskGens.mpr hd, hst⟩]
  · by_cases hg : ∃ g, l = .gl g
    · obtain ⟨g, rfl⟩ := hg
      rw [port_switched_gl ht, if_neg fun hc => h ⟨g, rfl, mem_maskGens.mp hc.1, hc.2⟩]
    · exact port_switched_other (fun g hl => hg ⟨g, hl⟩) ht

/-- The evaluation after ENABLE GENERATORS and what settles then. -/
theorem evaluates_settles {s1 : State} (before : State) (hs : s1.Sound) (p : Prop) [Decidable p] : ∃ s2 u,
    (if p then evaluate s1 else Flow.ok s1) = .ok s2 ∧ (p → evaluate s1 = .ok s2 ∧ Undisturbed s1 s2) ∧ (¬ p → s2 = s1) ∧
      Undisturbed s1 s2 ∧ Settled before s2 u ∧ ∀ g, (s1.desk g).Still → u.desk g = s1.desk g := by
  obtain ⟨s2, h2, hsound, heval, hsame, hdist, hkept⟩ : ∃ s2, (if p then evaluate s1 else Flow.ok s1) = .ok s2 ∧ s2.Sound ∧
      (p → evaluate s1 = .ok s2 ∧ Undisturbed s1 s2) ∧ (¬ p → s2 = s1) ∧ Undisturbed s1 s2 ∧
        ∀ g, (s1.desk g).Still → s2.desk g = s1.desk g := by
    by_cases hp : p
    · obtain ⟨s2, h2, hpath, hsound⟩ := (run_evaluate (D := fun _ => True) s1 (holdsNone_all s1)).completes hs
      have hdist := hpath.undisturbed (by decide)
      refine ⟨s2, by rw [if_pos hp, h2], hsound, fun _ => ⟨h2, hdist⟩, fun h => absurd hp h, hdist, fun g hg => ?_⟩
      obtain ⟨s2', h2', hpath', _⟩ := (run_evaluate (D := fun k => k ≠ g) s1 fun k hk => not_not.mp hk ▸ hg.1).completes hs
      cases h2.symm.trans h2'
      exact hpath'.desk fun h => h rfl
    · exact ⟨s1, if_neg hp, hs, fun h => absurd h hp, fun _ => rfl, .refl s1, fun _ _ => rfl⟩
  obtain ⟨u, hu⟩ := settled_sound before hsound
  refine ⟨s2, u, h2, heval, hsame, hdist, hu, fun g hg => ?_⟩
  obtain ⟨⟨u', hu', _, hdesk⟩, _⟩ := settles_still (g := g) before hsound (hkept g hg ▸ hg)
  cases hu.work.symm.trans hu'
  exact hdesk.trans (hkept g hg)

end

theorem still_disabled (d : Desk) : d.disabled.Still := ⟨rfl, nofun⟩

/-- Settles O32: each clause is a fact about `switchGens` that the evaluation and what settles leave standing. -/
theorem enableAndDisable : Obligations.EnableAndDisable := by
  unfold Obligations.EnableAndDisable
  refine ⟨fun s e d hl hsafe he hd hed => ?_, fun s e d hl hs hsafe he hd hed => ?_⟩
  · intro f
    have hf : enableGens (maskGens e) (maskGens d) s = f := enableGens_eq s e d
    rw [← hf]
    exact ⟨exec_answered (k := .enableGenerators) hl rfl rfl nofun (serve_enable hsafe he hd hed),
      (run_enableGens (maskGens e) (maskGens d) s).safe.1⟩
  · obtain ⟨s1, h1, hsound, hunmoved⟩ := switchGens_of_sound (maskGens e) (maskGens d) hs
    obtain ⟨s2, u, h2, heval, hsame, hdist, hsettled, hstill⟩ := evaluates_settles s hsound
      (∃ g : Gen, d.getLsbD g.val = true ∧ (s.desk g).state ≠ .disabled)
    have hwork : enableGens (maskGens e) (maskGens d) s = .ok u := by
      rw [enableGens_eq, h1, Flow.ok_andThen, h2, Flow.ok_andThen, hsettled.work]
    obtain ⟨t, ht, hanswer⟩ := exec_answered (k := .enableGenerators) hl rfl rfl nofun (serve_enable hsafe he hd hed)
    rw [hwork] at hanswer
    have hafter : Undisturbed s1 u := hdist.trans hsettled.frame
    have hport : ∀ l, u.port l = s1.port l := port_of_ports hafter.ports
    refine ⟨s1, s2, u, t, ht, h1, hsound, hunmoved, heval, fun hall => hsame fun ⟨g, hg, hst⟩ => hst (hall g hg), hsettled, hanswer,
      fun l => ⟨fun hg hr => ?_, fun hno => ?_⟩, fun g hg => ?_, fun g hg hst => ?_, fun g hg hst => ?_, fun hzero => ?_⟩
    · rw [hport, (port_switched h1 l).1 hg, quiet_receiving hr]
    · rw [hport]
      by_cases hg : ∃ g : Gen, l = .gl g ∧ d.getLsbD g.val = true ∧ (s.desk g).state ≠ .disabled
      · rw [(port_switched h1 l).1 hg, quiet_other fun hr => hno ⟨hg, hr⟩]
      · exact (port_switched h1 l).2 hg
    · have hst := state_switched_disable hs h1 (mem_maskGens.mpr hg)
      rw [hafter.outState g (hst ▸ rfl), hst]
    · have habsent := state_switched_enable hs h1 (fun h => masks_apart hed hg (mem_maskGens.mp h)) (mem_maskGens.mpr hg) hst
      rw [hafter.outState g (habsent ▸ rfl), habsent]
    · obtain ⟨hdesk, hcoils⟩ := switched_disabled hs h1 (mem_maskGens.mpr hg) hst
      refine ⟨(hstill g (hdesk ▸ still_disabled _)).trans hdesk, fun c hc => ?_⟩
      obtain ⟨hgone, hnone⟩ := hcoils c hc
      refine ⟨hgone, fun hon hnot => hnone ?_⟩
      rintro (hoff | ⟨o, n, hrel⟩)
      · rw [hon] at hoff
        cases hoff
      · exact hnot o n hrel
    · have hs1 := switchGens_enable hs (maskGens e)
      rw [hzero, maskGens_zero] at h1
      rw [Flow.ok.inj (h1.symm.trans hs1), State.enabled]
      simp only [decide_eq_true_eq, mem_maskGens]

end Sys2Proof.Machine

/-! PROOFS. The first of the best of a list, and the re-plan pass: the plan of each pan and the moves of its coils (R66 to R77). -/

namespace Sys2Proof.Machine

/-! ## The best of a list by a key, the first among equals -/

section
variable {α β : Type} [LinearOrder β] {key : α → β} {r : α → α → Prop}

theorem bestBy_key_first : ∀ {l : List α} {x : α}, l.Pairwise r → bestBy (fun a b => decide (key b < key a)) l = some x →
    ∀ z ∈ l, z ≠ x → key z < key x ∨ (key z = key x ∧ r x z)
  | y :: ys, x, hp, h, z, hz, hne => by
    obtain ⟨hy, hys⟩ := List.pairwise_cons.mp hp
    unfold bestBy at h
    split at h
    · next hnone =>
      rw [bestBy_eq_none_iff.mp hnone, List.mem_singleton] at hz
      exact absurd (hz.trans (Option.some.inj h)) hne
    · next w hw =>
      have hbest := bestBy_key_first hys hw
      split at h
      · next hlt =>
        cases Option.some.inj h
        rcases List.mem_cons.mp hz with rfl | hz
        · exact .inl (of_decide_eq_true hlt)
        · exact hbest z hz hne
      · next hge =>
        cases Option.some.inj h
        have hle : key w ≤ key y := not_lt.mp fun hlt => hge (decide_eq_true hlt)
        have hz := (List.mem_cons.mp hz).resolve_left hne
        have hzy : key z ≤ key y := by
          by_cases hzw : z = w
          · exact hzw ▸ hle
          · exact (hbest z hz hzw).elim (fun h => (h.trans_le hle).le) fun h => h.1.le.trans hle
        exact hzy.lt_or_eq.imp id fun he => ⟨he, hy z hz⟩

/-- The best of a list whose members stand in an order: no other has a higher key, or as high a one and stands before. -/
theorem bestBy_key_iff (hr : ∀ a b, r a b → ¬ r b a) {l : List α} (hp : l.Pairwise r) {x : α} :
    bestBy (fun a b => decide (key b < key a)) l = some x ↔
      x ∈ l ∧ ∀ z ∈ l, z ≠ x → key z < key x ∨ (key z = key x ∧ r x z) := by
  refine ⟨fun h => ⟨bestBy_mem h, bestBy_key_first hp h⟩, fun ⟨hx, hbest⟩ => ?_⟩
  cases h : bestBy (fun a b => decide (key b < key a)) l with
  | none =>
    rw [bestBy_eq_none_iff.mp h] at hx
    cases hx
  | some y =>
    by_contra hne
    have hxy : x ≠ y := fun h => hne (congrArg some h.symm)
    rcases hbest y (bestBy_mem h) hxy.symm with hlt | ⟨heq, hxy'⟩
    · rcases bestBy_key_first hp h x hx hxy with hlt' | ⟨heq', _⟩
      · exact lt_asymm hlt hlt'
      · exact hlt.ne' heq'
    · rcases bestBy_key_first hp h x hx hxy with hlt' | ⟨_, hyx⟩
      · exact hlt'.ne' heq
      · exact hr x y hxy' hyx

end

/-! ## The plan (R66, R68, R69) -/

theorem eligible_iff (s : State) (g : Gen) : s.eligible g = true ↔ s.safe = false ∧ (s.desk g).state.inService = true := by
  rw [State.eligible, Bool.and_eq_true, decide_eq_true_iff, Bool.not_eq_true']
  refine and_congr_right fun _ => ?_
  cases (s.desk g).state <;> decide

theorem mem_reachers {s : State} {footprint : List CoilNo} {g : Gen} : g ∈ s.reachers footprint ↔
    s.safe = false ∧ (s.desk g).state.inService = true ∧ ∀ c ∈ footprint, homeGen c = g ∨ altGen c = some g := by
  simp only [State.reachers, List.mem_filter, mem_allGens, true_and, Bool.and_eq_true, eligible_iff, List.all_eq_true, reaches,
    decide_eq_true_eq, and_assoc]

theorem choosePlan_single {s : State} {footprint : List CoilNo} {g : Gen} : s.choosePlan footprint = .single g ↔
    g ∈ s.reachers footprint ∧ ∀ h ∈ s.reachers footprint, h ≠ g →
      homeCount h footprint < homeCount g footprint ∨ (homeCount h footprint = homeCount g footprint ∧ g < h) := by
  refine Iff.trans ?_ (bestBy_key_iff (key := fun g => homeCount g footprint) (fun _ _ => lt_asymm) (sorted_allGens.filter _))
  rw [State.choosePlan, State.reachers]
  cases bestBy (fun a b => decide (homeCount b footprint < homeCount a footprint))
      (allGens.filter fun g => s.eligible g && footprint.all (reaches g)) with
  | none => exact iff_of_false nofun nofun
  | some h => rw [Plan.single.injEq, Option.some.injEq]

theorem choosePlan_split {s : State} {footprint : List CoilNo} : s.choosePlan footprint = .split ↔
    ∀ g, g ∉ s.reachers footprint := by
  rw [← List.eq_nil_iff_forall_not_mem, ← bestBy_eq_none_iff (before := fun a b => decide (homeCount b footprint < homeCount a footprint)),
    State.choosePlan]
  cases bestBy (fun a b => decide (homeCount b footprint < homeCount a footprint)) (s.reachers footprint) with
  | none => exact iff_of_true rfl rfl
  | some h => exact iff_of_false nofun nofun

/-! ## The moves (R73, R75, R77) -/

theorem plannedPosition_eq (c : CoilNo) (plan : Plan) : plannedPosition c plan = match plan with
    | .split => .home
    | .single g => if altGen c = some g then .alternate else .home := by
  cases plan with
  | split => rfl
  | single g =>
    unfold plannedPosition
    by_cases ha : altGen c = some g
    · simp [ha, (altGen_away c g ha).1]
    · simp [ha]

/-- What the pan that holds a coil makes of its record under its plan, by the numbers of the ISSUED orders. -/
def Coil.moved (issued : Gen → Option Byte) (plan : Plan) (c : CoilNo) (r : Coil) : Coil :=
  let p := plannedPosition c plan
  match r.state with
  | .claimed o => if r.driver ≠ p ∧ hasRelay c = true then { r with driver := p, state := .switching (some o) 15 } else r
  | .driven o n => if r.driver ≠ p ∧ issued (driverAt c r.driver) = some n then { r with state := .transfer o n p } else r
  | .transfer o n _ => if r.driver = p then { r with state := .driven o n } else r
  | _ => r

/-- A coil record after the pan that holds it has looked at it under its plan. -/
def State.movedCoil (s : State) (plan : Plan) (c : CoilNo) : Coil :=
  (s.coil c).moved (fun g => (s.issuedOrder g).map (·.number)) plan c

theorem inIssued_iff {s : State} {c : CoilNo} {o : PanId} {n : Byte} (h : (s.coil c).state = .driven o n) :
    s.inIssued c = true ↔ (s.issuedOrder (s.driverGen c)).map (·.number) = some n := by
  unfold State.inIssued State.issuedOrder
  rcases (s.desk (s.driverGen c)).order with _ | ⟨m, _ | t, legs, charge, code⟩
  · exact iff_of_false nofun nofun
  · exact iff_of_false nofun nofun
  · simp only [h, CoilState.order, decide_eq_true_eq, Option.map_some, Option.some.injEq]
    exact eq_comm

section
variable {s : State} {plan : Plan} {c : CoilNo} {o : PanId} {n : Byte}

theorem movedCoil_claimed (h : (s.coil c).state = .claimed o) : s.movedCoil plan c =
    if (s.coil c).driver ≠ plannedPosition c plan ∧ hasRelay c = true then
      { s.coil c with driver := plannedPosition c plan, state := .switching (some o) 15 } else s.coil c := by
  simp only [State.movedCoil, Coil.moved, h]

theorem movedCoil_driven (h : (s.coil c).state = .driven o n) : s.movedCoil plan c =
    if (s.coil c).driver ≠ plannedPosition c plan ∧ (s.issuedOrder (s.driverGen c)).map (·.number) = some n then
      { s.coil c with state := .transfer o n (plannedPosition c plan) } else s.coil c := by
  simp only [State.movedCoil, Coil.moved, h]
  rfl

theorem movedCoil_transfer {p : Position} (h : (s.coil c).state = .transfer o n p) : s.movedCoil plan c =
    if (s.coil c).driver = plannedPosition c plan then { s.coil c with state := .driven o n } else s.coil c := by
  simp only [State.movedCoil, Coil.moved, h]

theorem movedCoil_idle (hc : ∀ o, (s.coil c).state ≠ .claimed o) (hd : ∀ o n, (s.coil c).state ≠ .driven o n)
    (ht : ∀ o n p, (s.coil c).state ≠ .transfer o n p) : s.movedCoil plan c = s.coil c := by
  cases hst : (s.coil c).state with
  | claimed o => exact absurd hst (hc o)
  | driven o n => exact absurd hst (hd o n)
  | transfer o n p => exact absurd hst (ht o n p)
  | _ => simp only [State.movedCoil, Coil.moved, hst]

theorem moveCoil_of_sound (hs : s.Sound) (plan : Plan) (c : CoilNo) :
    moveCoil plan c s = .ok (s.setCoil c (s.movedCoil plan c)) ∧ (s.movedCoil plan c).codeOk = true := by
  have hok := hs.coils c
  unfold moveCoil
  rw [checkCoil_of_sound hs, Flow.ok_andThen]
  cases hst : (s.coil c).state with
  | claimed o =>
    rw [movedCoil_claimed hst]
    simp only
    rw [editCoil_of_sound hs c ((codeOk_relayTo _ _ _).trans hok), relayTo]
    simp only [hst, and_comm, Config.switchTime]
    split <;> exact ⟨trivial, hok⟩
  | driven o n =>
    rw [movedCoil_driven hst]
    simp only [inIssued_iff hst]
    split
    · rw [editCoil_of_sound hs c (f := Coil.toTransfer _) (by rw [Coil.toTransfer, hst]; exact hok)]
      simp only [Coil.toTransfer, hst]
      exact ⟨trivial, hok⟩
    · rw [State.setCoil_coil]
      exact ⟨rfl, hok⟩
  | transfer o n p =>
    rw [movedCoil_transfer hst]
    simp only
    split
    · rw [editCoil_of_sound hs c (f := Coil.cancelTransfer) (by rw [Coil.cancelTransfer, hst]; exact hok)]
      simp only [Coil.cancelTransfer, hst]
      exact ⟨trivial, hok⟩
    · rw [State.setCoil_coil]
      exact ⟨rfl, hok⟩
  | _ =>
    rw [movedCoil_idle (by simp [hst]) (by simp [hst]) (by simp [hst]), State.setCoil_coil]
    exact ⟨rfl, hok⟩

theorem movedCoil_other (s : State) (plan : Plan) {c d : CoilNo} (h : d ≠ c) (r : Coil) :
    (s.setCoil c r).movedCoil plan d = s.movedCoil plan d := by
  have hissued : ∀ g, (s.setCoil c r).issuedOrder g = s.issuedOrder g := fun _ => rfl
  simp only [State.movedCoil, hissued, State.coil_setCoil, if_neg h]

/-- A coil that has moved is not moved again. -/
theorem movedCoil_again (s : State) (plan : Plan) (c : CoilNo) :
    (s.setCoil c (s.movedCoil plan c)).movedCoil plan c = s.movedCoil plan c := by
  have hself : ∀ r, (s.setCoil c r).coil c = r := fun r => State.coil_setCoil_self s c r
  cases hst : (s.coil c).state with
  | claimed o =>
    rw [movedCoil_claimed hst]
    split
    · exact (movedCoil_idle (by simp [hself]) (by simp [hself]) (by simp [hself])).trans (hself _)
    · next h => rw [State.setCoil_coil, movedCoil_claimed hst, if_neg h]
  | driven o n =>
    rw [movedCoil_driven hst]
    split
    · next h =>
      rw [movedCoil_transfer (by rw [hself]), hself]
      exact if_neg h.1
    · next h => rw [State.setCoil_coil, movedCoil_driven hst, if_neg h]
  | transfer o n p =>
    rw [movedCoil_transfer hst]
    split
    · next h =>
      rw [movedCoil_driven (by rw [hself]), hself]
      exact if_neg fun hc => hc.1 h
    · next h => rw [State.setCoil_coil, movedCoil_transfer hst, if_neg h]
  | _ =>
    have hidle : s.movedCoil plan c = s.coil c := movedCoil_idle (by simp [hst]) (by simp [hst]) (by simp [hst])
    rw [hidle, State.setCoil_coil, hidle]

theorem forEach_moveCoil_of_sound (plan : Plan) : ∀ (l : List CoilNo) {s : State}, s.Sound → forEach (moveCoil plan) l s =
    .ok (s.withCoils fun c => if c ∈ l then s.movedCoil plan c else s.coil c)
  | [], s, _ => congrArg Flow.ok (withCoils_self s).symm
  | c :: cs, s, hs => by
    obtain ⟨hmove, hok⟩ := moveCoil_of_sound hs plan c
    rw [forEach, hmove, Flow.ok_andThen, forEach_moveCoil_of_sound plan cs (hs.setCoil c hok), withCoils_setCoil]
    refine congrArg (fun f => Flow.ok (s.withCoils f)) (funext fun d => ?_)
    by_cases hd : d = c
    · subst hd
      simp only [movedCoil_again, State.coil_setCoil_self, ite_self, List.mem_cons_self, if_true]
    · simp only [movedCoil_other s plan hd, State.coil_setCoil, List.mem_cons, hd, false_or, if_false]

end

end Sys2Proof.Machine

/-! PROOFS. The re-plan pass, slot by slot (R67, R70 to R73, R81). -/

namespace Sys2Proof.Machine

/-- The coil is DRIVEN and elsewhere than planned. -/
def Coil.isMoving (p : Position) (r : Coil) : Bool :=
  decide (r.driver ≠ p) &&
    match r.state with
    | .driven _ _ => true
    | _ => false

/-- The coil is DRIVEN and to be moved to its other driver. -/
def State.isMoving (x : State) (plan : Plan) (c : CoilNo) : Bool := (x.coil c).isMoving (plannedPosition c plan)

theorem noted_eq (x : State) (plan : Plan) (c : CoilNo) : x.noted plan c = x.isMoving plan c := by
  unfold State.noted State.isMoving Coil.isMoving
  cases (x.coil c).state <;> simp

/-- One slot's part of a re-plan pass that began at the first state. -/
def passSlot (s : State) (x : State × List Gen) (n : Slot) : State × List Gen :=
  let p := s.pan n
  let q := s.choosePlan p.footprint
  if p.state ≠ .present ∨ p.footprint = [] then x
  else ({ (x.1.setPan n { p with plan := some q, split := decide (q = .split) }) with
      coils := Vector.ofFn fun c => if c ∈ p.footprint then x.1.movedCoil q c else x.1.coil c },
    x.2 ++ (p.footprint.filter (x.1.isMoving q)).map x.1.driverGen)

section
variable {s x : State} {n : Slot}

theorem passSlot_skip {noted : List Gen} (h : (s.pan n).state ≠ .present ∨ (s.pan n).footprint = []) :
    passSlot s (x, noted) n = (x, noted) := if_pos h

/-- The re-planning of a pan that is not PRESENT or has no footprint. -/
theorem replanFrom_skip {rest : List Slot} {noted : List Gen} (h : (x.pan n).state ≠ .present ∨ (x.pan n).footprint = []) :
    replanFrom (n :: rest) noted x = replanFrom rest noted x := by
  have hplan : planPan n x = .ok x := if_neg fun hc => h.elim (absurd hc.1) hc.2
  have hmore : (if (x.pan n).state = .present then x.notedBy n else []) = [] := by
    split
    · next hp =>
      have hfoot := h.resolve_left (not_not.mpr hp)
      unfold State.notedBy
      split
      · rw [hfoot]
        rfl
      · rfl
    · rfl
  have hmove : movePan n x = .ok x := by
    unfold movePan
    split
    · next plan hp _ =>
      rw [h.resolve_left (not_not.mpr hp)]
      rfl
    · rfl
  rw [replanFrom, hplan, Flow.ok_andThen]
  simp only [hmore, hmove, Flow.ok_andThen, List.append_nil]

theorem sound_movedCoils (hx : x.Sound) (plan : Plan) (l : List CoilNo) :
    (x.withCoils fun c => if c ∈ l then x.movedCoil plan c else x.coil c).Sound := sound_withCoils hx fun c => by
  split
  · exact (moveCoil_of_sound hx plan c).2
  · exact hx.coils c

/-- The re-planning of a PRESENT pan with a footprint. -/
theorem replanFrom_present {rest : List Slot} {noted : List Gen} (hx : x.Sound) (hp : (x.pan n).state = .present)
    (hf : (x.pan n).footprint ≠ []) : replanFrom (n :: rest) noted x =
      replanFrom rest (passSlot x (x, noted) n).2 (passSlot x (x, noted) n).1 ∧ (passSlot x (x, noted) n).1.Sound := by
  obtain ⟨q, hq⟩ : ∃ q, q = x.choosePlan (x.pan n).footprint := ⟨_, rfl⟩
  obtain ⟨p, hpdef⟩ : ∃ p : Pan, p = { x.pan n with plan := some q, split := decide (q = .split) } := ⟨_, rfl⟩
  have hok : p.codeOk = true := hpdef ▸ hx.pans n
  have hplan : planPan n x = .ok (x.setPan n p) := by
    have hsame : (x.pan n).withPlan (x.choosePlan (x.pan n).footprint) = p := by rw [hpdef, hq]; rfl
    rw [planPan, if_pos ⟨hp, hf⟩, editPan_of_sound hx n (hsame ▸ hok), hsame]
  have hpan : (x.setPan n p).pan n = p := State.pan_setPan_self x n p
  have hstate : p.state = .present := hpdef ▸ hp
  have hfoot : p.footprint = (x.pan n).footprint := by rw [hpdef]
  have hsome : p.plan = some q := by rw [hpdef]
  have hmore : (if ((x.setPan n p).pan n).state = .present then (x.setPan n p).notedBy n else []) =
      ((x.pan n).footprint.filter (x.isMoving q)).map x.driverGen := by
    rw [hpan, if_pos hstate, State.notedBy, hpan]
    simp only [hsome, hfoot]
    exact congrArg (List.map _) (List.filter_congr fun c _ => noted_eq x q c)
  have hsound := hx.setPan n hok
  have hmoved : ∀ c, (x.setPan n p).movedCoil q c = x.movedCoil q c := fun _ => rfl
  have hmove : movePan n (x.setPan n p) = .ok ((x.setPan n p).withCoils fun c =>
      if c ∈ (x.pan n).footprint then x.movedCoil q c else x.coil c) := by
    unfold movePan
    simp only [hpan, hstate, hsome, hfoot]
    rw [forEach_moveCoil_of_sound q _ hsound]
    rfl
  have hpass : passSlot x (x, noted) n = ((x.setPan n p).withCoils fun c =>
      if c ∈ (x.pan n).footprint then x.movedCoil q c else x.coil c,
      noted ++ ((x.pan n).footprint.filter (x.isMoving q)).map x.driverGen) := by
    unfold passSlot
    simp only
    rw [if_neg (by simp [hp, hf]), withCoils_eq, ← hq, ← hpdef]
  rw [hpass, replanFrom, hplan, Flow.ok_andThen]
  simp only [hmore, hmove, Flow.ok_andThen, true_and]
  exact sound_movedCoils hsound q _

/-- A pass reads the pan it comes to, and the desks, as they were at its beginning. -/
structure PassReads (s x : State) (l : List Slot) : Prop where
  sound : x.Sound
  pan : ∀ n ∈ l, x.pan n = s.pan n
  plan : ∀ footprint, x.choosePlan footprint = s.choosePlan footprint

theorem passSlot_congr {l : List Slot} {noted : List Gen} (h : PassReads s x l) (hn : n ∈ l) :
    passSlot s (x, noted) n = passSlot x (x, noted) n := by
  unfold passSlot
  simp only
  rw [h.pan n hn, h.plan]

theorem choosePlan_congr {t : State} (hd : ∀ g, t.desk g = x.desk g) (hs : t.safe = x.safe) (footprint : List CoilNo) :
    t.choosePlan footprint = x.choosePlan footprint := by
  have heligible : t.eligible = x.eligible := funext fun g => by rw [State.eligible, State.eligible, hd, hs]
  rw [State.choosePlan, State.choosePlan, State.reachers, State.reachers, heligible]

/-- What one slot's part of the pass leaves: other pans, the desks, and whether the state is SAFE. -/
theorem passSlot_leaves (s : State) (x : State × List Gen) (n : Slot) : (∀ m, m ≠ n → (passSlot s x n).1.pan m = x.1.pan m) ∧
    (∀ g, (passSlot s x n).1.desk g = x.1.desk g) ∧ (passSlot s x n).1.safe = x.1.safe := by
  unfold passSlot
  simp only
  rw [← withCoils_eq]
  split
  · exact ⟨fun _ _ => rfl, fun _ => rfl, rfl⟩
  · refine ⟨fun m hm => ?_, fun g => ?_, ?_⟩
    · rw [pan_withCoils, State.pan_setPan, if_neg hm]
    · rw [desk_withCoils, State.desk_setPan]
    · rw [safe_withCoils, State.safe_setPan]

theorem PassReads.next {l : List Slot} {noted : List Gen} (h : PassReads s x (n :: l)) (hl : n ∉ l)
    (hx : (passSlot x (x, noted) n).1.Sound) : PassReads s (passSlot x (x, noted) n).1 l where
  sound := hx
  pan m hm := ((passSlot_leaves x (x, noted) n).1 m fun e => hl (e ▸ hm)).trans (h.pan m (List.mem_cons_of_mem _ hm))
  plan footprint := by
    obtain ⟨_, hdesk, hsafe⟩ := passSlot_leaves x (x, noted) n
    exact (choosePlan_congr hdesk hsafe footprint).trans (h.plan footprint)

theorem replanFrom_of_sound : ∀ (l : List Slot) {noted : List Gen} {x : State}, l.Nodup → PassReads s x l →
    replanFrom l noted x = reportAll (l.foldl (passSlot s) (x, noted)).2 (l.foldl (passSlot s) (x, noted)).1 ∧
      (l.foldl (passSlot s) (x, noted)).1.Sound
  | [], _, _, _, h => ⟨rfl, h.sound⟩
  | n :: rest, noted, x, hl, h => by
    obtain ⟨hn, hrest⟩ := List.nodup_cons.mp hl
    rw [List.foldl_cons, passSlot_congr h List.mem_cons_self]
    by_cases hskip : (x.pan n).state ≠ .present ∨ (x.pan n).footprint = []
    · have hx : (passSlot x (x, noted) n).1.Sound := by rw [passSlot_skip hskip]; exact h.sound
      have hnext := h.next hn hx
      rw [replanFrom_skip hskip]
      rw [passSlot_skip hskip] at hnext ⊢
      exact replanFrom_of_sound rest hrest hnext
    · obtain ⟨hp, hf⟩ := not_or.mp hskip
      obtain ⟨heq, hx⟩ := replanFrom_present (rest := rest) (noted := noted) h.sound (not_not.mp hp) hf
      rw [heq]
      exact replanFrom_of_sound rest hrest (h.next hn hx)

end

/-- Settles O60: the pass slot by slot, with the choice of a plan by `bestBy_key_iff`. -/
theorem replanPassPlansAndMoves : Obligations.ReplanPassPlansAndMoves := by
  unfold Obligations.ReplanPassPlansAndMoves
  refine ⟨fun s hs => ?_, fun s footprint => ?_⟩
  · intro toward moved isMoving pass passed
    have htoward : (fun q c => plannedPosition c q) = toward := funext fun q => funext fun c => plannedPosition_eq c q
    have hmoved : State.movedCoil = moved := funext fun x => funext fun q => funext fun c => by
      unfold State.movedCoil Coil.moved
      rw [show plannedPosition c q = toward q c from congrFun (congrFun htoward q) c]
      rfl
    have hisMoving : State.isMoving = isMoving := funext fun x => funext fun q => funext fun c => by
      unfold State.isMoving
      rw [show plannedPosition c q = toward q c from congrFun (congrFun htoward q) c]
      rfl
    have hpass : passSlot s = pass := by
      unfold passSlot
      rw [hmoved, hisMoving]
    obtain ⟨heq, hsound⟩ := replanFrom_of_sound (s := s) allSlots (noted := []) nodup_allSlots ⟨hs, fun _ _ => rfl, fun _ => rfl⟩
    rw [hpass] at heq hsound
    obtain ⟨t, ht⟩ := Run.reported (gs := passed.2) hsound
    exact ⟨t, heq.trans ht.work, ht⟩
  · intro able atHome
    have hable : ∀ g, g ∈ s.reachers footprint ↔ able g := fun _ => mem_reachers
    refine ⟨fun g => ?_, choosePlan_split.trans (forall_congr' fun g => not_congr (hable g))⟩
    rw [choosePlan_single, hable]
    exact and_congr_right fun _ => forall_congr' fun h => by rw [hable]; exact imp.swap

end Sys2Proof.Machine

/-! PROOFS. PAN MOVED, the windows and the BARRED test (R56, R57, R87, R104, R105). -/

namespace Sys2Proof.Machine

/-! ## PAN MOVED (R56) -/

/-- One pick's part of `stepMoved`, with the pans and the clock of the first state. -/
def tellMoved (s x : State) (p : Pick) : State :=
  if (s.pan p.slot).footprint = p.old then x
  else x.postEvent ⟨.panMoved, s.now % 65536, some ⟨p.slot, some (s.pan p.slot).tag⟩, none, none, none⟩

theorem stepMoved_from (s : State) : ∀ (picks : List Pick) {x : State}, QueueOnly s x → stepMoved picks x = picks.foldl (tellMoved s) x
  | [], _, _ => rfl
  | p :: rest, x, h => by
    have hpan : x.pan p.slot = s.pan p.slot := h.keeps (fun y => State.pan y p.slot) fun _ _ _ => rfl
    have hnow : x.now = s.now := h.keeps State.now fun _ _ _ => rfl
    have hstep : (if (x.pan p.slot).footprint = p.old then x else x.postPan .panMoved (x.panId p.slot)) = tellMoved s x p := by
      rw [tellMoved, State.postPan, State.event, State.panId, hpan, hnow]
    have hnext : QueueOnly s (tellMoved s x p) := by
      unfold tellMoved
      split
      · exact h
      · exact h.postEvent _
    have hrest := stepMoved_from s rest hnext
    unfold stepMoved at hrest ⊢
    rw [List.foldl_cons, hstep, List.foldl_cons]
    exact hrest

/-! ## Slots in turn -/

/-- Pan records, the Priority List and the queue alone may differ. -/
def PansOnly (s x : State) : Prop :=
  x = { s with pans := x.pans, priority := x.priority, events := x.events, eventsLost := x.eventsLost }

theorem pansOnly_frame : Frame PansOnly where
  refl _ := rfl
  trans {s t u} h k := by
    obtain ⟨⟩ := s
    obtain ⟨⟩ := t
    obtain ⟨⟩ := u
    simp only [PansOnly, State.mk.injEq] at h k ⊢
    simp_all

section
variable {s x t : State} {n : Slot} {l : List Slot}

theorem PansOnly.keeps {α : Type} (h : PansOnly s x) (f : State → α)
    (hf : ∀ (y : State) ps pr es b, f { y with pans := ps, priority := pr, events := es, eventsLost := b } = f y) : f x = f s := by
  rw [h]
  exact hf s _ _ _ _

theorem pansOnly_setPan (s : State) (n : Slot) (p : Pan) : PansOnly s (s.setPan n p) := rfl

theorem pansOnly_postEvent (s : State) (e : Event) : PansOnly s (s.postEvent e) := by
  unfold PansOnly State.postEvent
  repeat' split
  all_goals rfl

/-- Work that goes slot by slot reads each pan as it was when the work began. -/
structure SlotReads (s x : State) (l : List Slot) : Prop where
  sound : x.Sound
  pan : ∀ n ∈ l, x.pan n = s.pan n
  only : PansOnly s x

theorem SlotReads.refl (hs : s.Sound) (l : List Slot) : SlotReads s s l := ⟨hs, fun _ _ => rfl, rfl⟩

theorem SlotReads.next (h : SlotReads s x (n :: l)) (hn : n ∉ l) (ht : t.Sound) (hpan : ∀ m, m ≠ n → t.pan m = x.pan m)
    (honly : PansOnly x t) : SlotReads s t l where
  sound := ht
  pan m hm := (hpan m fun e => hn (e ▸ hm)).trans (h.pan m (List.mem_cons_of_mem _ hm))
  only := pansOnly_frame.trans h.only honly

end

/-! ## Windows (R57, R104, R105) -/

/-- The state once a pan has taken the preset of a window. -/
def State.entered (x : State) (n : Slot) (w : WindowNo) : State :=
  let p := x.pan n
  let level : Fin 14 := (x.window w).preset.castSucc
  let told : State := (x.setPan n { p with level := level, source := .window, window := some w, boost := none }).postEvent
    ⟨.levelSetByWindow, x.now % 65536, some ⟨n, some p.tag⟩, none, none, some (.window w)⟩
  if p.level < level then { told with priority := n :: told.priority.erase n } else told

/-- One slot's part of the windows' step that began at the first state. -/
def enterSlot (s : State) (x : State × List Gen) (n : Slot) : State × List Gen :=
  let p := s.pan n
  if p.state ≠ .present then x
  else match p.centre.bind s.presetAt with
    | none => (x.1.setPan n { p with window := none }, x.2)
    | some w =>
      if p.window = some w then x
      else
        let level : Fin 14 := (s.window w).preset.castSucc
        let told : State := (x.1.setPan n { p with level := level, source := .window, window := some w, boost := none }).postEvent
          ⟨.levelSetByWindow, s.now % 65536, some ⟨n, some p.tag⟩, none, none, some (.window w)⟩
        (if p.level < level then { told with priority := n :: told.priority.erase n } else told,
          x.2 ++ if level < p.level then s.legHolders (s.panId n) else [])

section
variable {s x t : State} {n : Slot} {l : List Slot} {affected : List Gen} {w : WindowNo}

theorem enterSlot_absent (h : (s.pan n).state ≠ .present) : enterSlot s (x, affected) n = (x, affected) := if_pos h

theorem enterSlot_outside (hp : (s.pan n).state = .present) (hw : (s.pan n).centre.bind s.presetAt = none) :
    enterSlot s (x, affected) n = (x.setPan n { s.pan n with window := none }, affected) := by
  simp only [enterSlot, hp, hw, ne_eq, not_true, if_false]

theorem enterSlot_stays (hp : (s.pan n).state = .present) (hw : (s.pan n).centre.bind s.presetAt = some w)
    (hr : (s.pan n).window = some w) : enterSlot s (x, affected) n = (x, affected) := by
  simp only [enterSlot, hp, hw, hr, ne_eq, not_true, if_false, if_true]

theorem enterSlot_enters (hp : (x.pan n).state = .present) (hw : (x.pan n).centre.bind x.presetAt = some w)
    (hr : (x.pan n).window ≠ some w) : enterSlot x (x, affected) n =
      (x.entered n w, affected ++ if (x.window w).preset.castSucc < (x.pan n).level then x.legHolders (x.panId n) else []) := by
  simp only [enterSlot, hp, hw, hr, ne_eq, not_true, if_false, State.entered]

/-- A pan that enters a window. -/
theorem entered_leaves (hx : x.Sound) (n : Slot) (w : WindowNo) : (x.entered n w).Sound ∧ (∀ m, m ≠ n → (x.entered n w).pan m = x.pan m) ∧
    PansOnly x (x.entered n w) ∧ ((x.entered n w).pan n).level = (x.window w).preset.castSucc ∧
      (x.entered n w).legHolders ((x.entered n w).panId n) = x.legHolders (x.panId n) := by
  obtain ⟨p, hp⟩ : ∃ p : Pan, p = { x.pan n with level := (x.window w).preset.castSucc, source := .window, window := some w, boost := none } :=
    ⟨_, rfl⟩
  obtain ⟨u, hu⟩ : ∃ u, u = (x.setPan n p).postEvent ⟨.levelSetByWindow, x.now % 65536, some ⟨n, some (x.pan n).tag⟩, none, none, some (.window w)⟩ :=
    ⟨_, rfl⟩
  have hentered : x.entered n w = if (x.pan n).level < (x.window w).preset.castSucc then { u with priority := n :: u.priority.erase n } else u := by
    rw [hu, hp]
    rfl
  have hpan : ∀ m, u.pan m = if m = n then p else x.pan m := fun m => by rw [hu, State.pan_postEvent, State.pan_setPan]
  have hsound : u.Sound := by
    rw [hu]
    exact sound_postEvent (hx.setPan n (hp ▸ hx.pans n)) _
  have honly : PansOnly x u := by
    rw [hu]
    exact pansOnly_frame.trans (pansOnly_setPan x n p) (pansOnly_postEvent _ _)
  have hholders : ∀ i, u.legHolders i = x.legHolders i := fun i => by rw [hu, legHolders_postEvent, legHolders_setPan]
  have hid : u.panId n = x.panId n := by rw [hu, panId_postEvent, panId_setPan (by rw [hp])]
  have hraised : ∀ v : State, v = u ∨ v = { u with priority := n :: u.priority.erase n } → v.Sound ∧ (∀ m, v.pan m = u.pan m) ∧
      PansOnly u v ∧ v.panId n = u.panId n ∧ ∀ i, v.legHolders i = u.legHolders i := by
    rintro v (rfl | rfl)
    · exact ⟨hsound, fun _ => rfl, rfl, rfl, fun _ => rfl⟩
    · exact ⟨⟨hsound.coils, hsound.pans, hsound.orders, hsound.levels, hsound.marks⟩, fun _ => rfl, rfl, rfl, fun _ => rfl⟩
  obtain ⟨hv, hvpan, hvonly, hvid, hvholders⟩ := hraised (x.entered n w) (by rw [hentered]; split; exacts [.inr rfl, .inl rfl])
  refine ⟨hv, fun m hm => by rw [hvpan, hpan, if_neg hm], pansOnly_frame.trans honly hvonly, by rw [hvpan, hpan, if_pos rfl, hp], ?_⟩
  rw [hvid, hvholders, hid, hholders]

theorem windowPan_enters (hx : x.Sound) (hp : (x.pan n).state = .present) (hw : (x.pan n).centre.bind x.presetAt = some w)
    (hr : (x.pan n).window ≠ some w) : windowPan n x = .ok (x.entered n w) := by
  unfold windowPan
  rw [if_pos hp]
  simp only [hw, if_neg hr]
  rw [editPan_of_sound hx n (f := Pan.takePreset w _) (hx.pans n), Flow.ok_andThen, State.postWindow,
    panId_setPan (p := (x.pan n).takePreset w (presetLevel (x.window w).preset)) rfl]
  rfl

/-- The windows' step at one slot. -/
theorem windowPan_of_sound (hx : x.Sound) (n : Slot) (affected : List Gen) : ∃ t, windowPan n x = .ok t ∧ t.Sound ∧
    (∀ m, m ≠ n → t.pan m = x.pan m) ∧ PansOnly x t ∧ enterSlot x (x, affected) n =
      (t, affected ++ if (t.pan n).level < (x.pan n).level then t.legHolders (t.panId n) else []) := by
  by_cases hp : (x.pan n).state = .present
  · cases hw : (x.pan n).centre.bind x.presetAt with
    | none =>
      refine ⟨x.setPan n { x.pan n with window := none }, ?_, hx.setPan n (hx.pans n), fun m hm => ?_, pansOnly_setPan _ _ _, ?_⟩
      · unfold windowPan
        rw [if_pos hp]
        simp only [hw]
        exact editPan_of_sound hx n (hx.pans n)
      · rw [State.pan_setPan, if_neg hm]
      · rw [enterSlot_outside hp hw, State.pan_setPan_self, if_neg (lt_irrefl _), List.append_nil]
    | some w =>
      by_cases hr : (x.pan n).window = some w
      · refine ⟨x, ?_, hx, fun _ _ => rfl, rfl, ?_⟩
        · unfold windowPan
          rw [if_pos hp]
          simp only [hw, if_pos hr]
        · rw [enterSlot_stays hp hw hr, if_neg (lt_irrefl _), List.append_nil]
      · obtain ⟨hsound, hpan, honly, hlevel, hholders⟩ := entered_leaves hx n w
        exact ⟨_, windowPan_enters hx hp hw hr, hsound, hpan, honly, by rw [enterSlot_enters hp hw hr, hlevel, hholders]⟩
  · exact ⟨x, if_neg hp, hx, fun _ _ => rfl, rfl, by rw [enterSlot_absent hp, if_neg (lt_irrefl _), List.append_nil]⟩

theorem enterSlot_congr (h : SlotReads s x l) (hn : n ∈ l) : enterSlot s (x, affected) n = enterSlot x (x, affected) n := by
  have hpreset : x.presetAt = s.presetAt := h.only.keeps State.presetAt fun _ _ _ _ _ => rfl
  have hwindow : x.window = s.window := h.only.keeps State.window fun _ _ _ _ _ => rfl
  have hholders : x.legHolders = s.legHolders := h.only.keeps State.legHolders fun _ _ _ _ _ => rfl
  have hnow : x.now = s.now := h.only.keeps State.now fun _ _ _ _ _ => rfl
  unfold enterSlot State.panId
  rw [hpreset, hwindow, hholders, hnow, h.pan n hn]

theorem stepWindowsFrom_of_sound : ∀ (l : List Slot) {affected : List Gen} {x : State}, l.Nodup → SlotReads s x l →
    stepWindowsFrom l affected x = reportAll (l.foldl (enterSlot s) (x, affected)).2 (l.foldl (enterSlot s) (x, affected)).1 ∧
      (l.foldl (enterSlot s) (x, affected)).1.Sound
  | [], _, _, _, h => ⟨rfl, h.sound⟩
  | n :: rest, affected, x, hl, h => by
    obtain ⟨hn, hrest⟩ := List.nodup_cons.mp hl
    obtain ⟨t, ht, hsound, hpan, honly, henter⟩ := windowPan_of_sound h.sound n affected
    rw [List.foldl_cons, enterSlot_congr h List.mem_cons_self, henter, stepWindowsFrom, ht, Flow.ok_andThen]
    exact stepWindowsFrom_of_sound rest hrest (h.next hn hsound hpan honly)

end

end Sys2Proof.Machine

/-! PROOFS. The BARRED test, slot by slot (R87). -/

namespace Sys2Proof.Machine

/-- One slot's part of the BARRED test that began at the first state. -/
def testSlot (s : State) (x : State × List Gen) (n : Slot) : State × List Gen :=
  let p := s.pan n
  let bars := p.footprint.all fun c => (s.coil c).hot || (s.coil c).fault
  let write : Bool → EventKind → State := fun b kind => (x.1.setPan n { p with barred := b }).postEvent
    ⟨kind, s.now % 65536, some ⟨n, some p.tag⟩, none, none, none⟩
  if p.state ≠ .present ∨ p.footprint = [] then x
  else if bars = true ∧ p.barred = false then (write true .panBarred, x.2 ++ s.legHolders (s.panId n))
  else if bars = false ∧ p.barred = true then (write false .panCleared, x.2)
  else x

/-- The state once the BARRED flag of a pan has changed. -/
def State.barredTo (x : State) (n : Slot) (b : Bool) : State :=
  (x.setPan n { x.pan n with barred := b }).postEvent
    ⟨if b then .panBarred else .panCleared, x.now % 65536, some ⟨n, some (x.pan n).tag⟩, none, none, none⟩

section
variable {s x t : State} {n : Slot} {l : List Slot} {affected : List Gen}

theorem testSlot_skip (h : (s.pan n).state ≠ .present ∨ (s.pan n).footprint = []) : testSlot s (x, affected) n = (x, affected) := if_pos h

theorem testSlot_same (h : s.allHot (s.pan n).footprint = (s.pan n).barred) : testSlot s (x, affected) n = (x, affected) := by
  unfold State.allHot at h
  unfold testSlot
  simp only [h]
  cases (s.pan n).barred <;> simp

theorem testSlot_changes (hp : (x.pan n).state = .present) (hf : (x.pan n).footprint ≠ []) {b : Bool}
    (hb : x.allHot (x.pan n).footprint = b) (h : b ≠ (x.pan n).barred) : testSlot x (x, affected) n =
      (x.barredTo n b, affected ++ if b = true ∧ (x.pan n).barred = false then x.legHolders (x.panId n) else []) := by
  have hgo : ¬ ((x.pan n).state ≠ .present ∨ (x.pan n).footprint = []) := not_or.mpr ⟨not_not.mpr hp, hf⟩
  unfold State.allHot at hb
  unfold testSlot
  simp only [if_neg hgo, hb]
  cases b <;> cases hbarred : (x.pan n).barred
  · exact absurd hbarred.symm h
  · simp [State.barredTo]
  · simp [State.barredTo]
  · exact absurd hbarred.symm h

theorem barredPan_eq (hx : x.Sound) (hp : (x.pan n).state = .present) (hf : (x.pan n).footprint ≠ []) : barredPan n x =
    if x.allHot (x.pan n).footprint = (x.pan n).barred then .ok x else .ok (x.barredTo n (x.allHot (x.pan n).footprint)) := by
  unfold barredPan
  simp only [hp, ne_eq, hf, not_false_eq_true, and_self, if_true]
  rw [checkPan_of_sound hx, Flow.ok_andThen, forEach_eq_self (checkCoil_of_sound hx), Flow.ok_andThen]
  split
  · rfl
  · rw [editPan_of_sound hx n (f := fun p => { p with barred := x.allHot (x.pan n).footprint }) (hx.pans n), Flow.ok_andThen, State.postPan,
      panId_setPan (p := { x.pan n with barred := x.allHot (x.pan n).footprint }) rfl]
    rfl

theorem barredTo_leaves (hx : x.Sound) (n : Slot) (b : Bool) : (x.barredTo n b).Sound ∧ (∀ m, m ≠ n → (x.barredTo n b).pan m = x.pan m) ∧
    PansOnly x (x.barredTo n b) ∧ ((x.barredTo n b).pan n).barred = b ∧
      (x.barredTo n b).legHolders ((x.barredTo n b).panId n) = x.legHolders (x.panId n) := by
  unfold State.barredTo
  refine ⟨sound_postEvent (hx.setPan n (p := { x.pan n with barred := b }) (hx.pans n)) _, fun m hm => ?_,
    pansOnly_frame.trans (pansOnly_setPan x n _) (pansOnly_postEvent _ _), ?_, ?_⟩
  · rw [State.pan_postEvent, State.pan_setPan, if_neg hm]
  · rw [State.pan_postEvent, State.pan_setPan_self]
  · rw [legHolders_postEvent, panId_postEvent, legHolders_setPan, panId_setPan (p := { x.pan n with barred := b }) rfl]

/-- The BARRED test at one slot. -/
theorem barredPan_of_sound (hx : x.Sound) (n : Slot) (affected : List Gen) : ∃ t, barredPan n x = .ok t ∧ t.Sound ∧
    (∀ m, m ≠ n → t.pan m = x.pan m) ∧ PansOnly x t ∧ testSlot x (x, affected) n =
      (t, affected ++ if (t.pan n).barred = true ∧ (x.pan n).barred = false then t.legHolders (t.panId n) else []) := by
  have hstill : (x, affected) = (x, affected ++ if (x.pan n).barred = true ∧ (x.pan n).barred = false then x.legHolders (x.panId n) else []) := by
    cases (x.pan n).barred <;> simp
  by_cases hskip : (x.pan n).state ≠ .present ∨ (x.pan n).footprint = []
  · refine ⟨x, ?_, hx, fun _ _ => rfl, rfl, (testSlot_skip hskip).trans hstill⟩
    exact if_neg fun hc => hskip.elim (absurd hc.1) hc.2
  · obtain ⟨hp, hf⟩ := not_or.mp hskip
    rw [not_not] at hp
    by_cases hb : x.allHot (x.pan n).footprint = (x.pan n).barred
    · exact ⟨x, (barredPan_eq hx hp hf).trans (if_pos hb), hx, fun _ _ => rfl, rfl, (testSlot_same hb).trans hstill⟩
    · obtain ⟨hsound, hpan, honly, hbarred, hholders⟩ := barredTo_leaves hx n (x.allHot (x.pan n).footprint)
      refine ⟨_, (barredPan_eq hx hp hf).trans (if_neg hb), hsound, hpan, honly, ?_⟩
      rw [testSlot_changes hp hf rfl hb, hbarred, hholders]

theorem testSlot_congr (h : SlotReads s x l) (hn : n ∈ l) : testSlot s (x, affected) n = testSlot x (x, affected) n := by
  have hcoil : x.coil = s.coil := h.only.keeps State.coil fun _ _ _ _ _ => rfl
  have hholders : x.legHolders = s.legHolders := h.only.keeps State.legHolders fun _ _ _ _ _ => rfl
  have hnow : x.now = s.now := h.only.keeps State.now fun _ _ _ _ _ => rfl
  unfold testSlot State.panId
  rw [hcoil, hholders, hnow, h.pan n hn]

theorem barredFrom_of_sound : ∀ (l : List Slot) {affected : List Gen} {x : State}, l.Nodup → SlotReads s x l →
    barredFrom l affected x = reportAll (l.foldl (testSlot s) (x, affected)).2 (l.foldl (testSlot s) (x, affected)).1 ∧
      (l.foldl (testSlot s) (x, affected)).1.Sound
  | [], _, _, _, h => ⟨rfl, h.sound⟩
  | n :: rest, affected, x, hl, h => by
    obtain ⟨hn, hrest⟩ := List.nodup_cons.mp hl
    obtain ⟨t, ht, hsound, hpan, honly, htest⟩ := barredPan_of_sound h.sound n affected
    rw [List.foldl_cons, testSlot_congr h List.mem_cons_self, htest, barredFrom, ht, Flow.ok_andThen]
    exact barredFrom_of_sound rest hrest (h.next hn hsound hpan honly)

end

/-- Settles O59: PAN MOVED, the windows and the BARRED test, each slot read as it was when the step began. -/
theorem movedWindowsAndBarred : Obligations.MovedWindowsAndBarred := by
  unfold Obligations.MovedWindowsAndBarred
  refine ⟨fun s picks => stepMoved_from s picks rfl, fun s hs => ?_, fun s hs => ?_⟩
  · intro enter entered
    have henter : enterSlot s = enter := rfl
    obtain ⟨heq, hsound⟩ := stepWindowsFrom_of_sound allSlots (affected := []) nodup_allSlots (SlotReads.refl hs _)
    rw [henter] at heq hsound
    obtain ⟨t, ht⟩ := Run.reported (gs := entered.2) hsound
    exact ⟨t, heq.trans ht.work, ht⟩
  · intro test tested
    have htest : testSlot s = test := rfl
    obtain ⟨heq, hsound⟩ := barredFrom_of_sound allSlots (affected := []) nodup_allSlots (SlotReads.refl hs _)
    rw [htest] at heq hsound
    obtain ⟨t, ht⟩ := Run.reported (gs := tested.2) hsound
    exact ⟨t, heq.trans ht.work, ht⟩

end Sys2Proof.Machine

/-! PROOFS. The owners of the coils follow the footprints (R7, R8, R55). -/

namespace Sys2Proof.Machine

theorem withCoils_withCoils (s : State) (f k : CoilNo → Coil) : (s.withCoils f).withCoils k = s.withCoils k := by
  simp only [withCoils_eq]

/-- The state of a coil that leaves its owner's footprint. -/
def CoilState.left : CoilState → CoilState
  | .claimed _ => .free
  | .driven _ n => .releasing none n false
  | .transfer _ n _ => .releasing none n false
  | .releasing _ n pending => .releasing none n pending
  | .switching _ ms => .switching none ms
  | other => other

/-- The state of a coil that joins a footprint, by the pan of the leg that holds it. -/
def CoilState.joined (legPan : Option PanId) (p : PanId) : CoilState → CoilState
  | .free => .claimed p
  | .releasing _ n pending => if legPan = some p then .driven p n else .releasing (some p) n pending
  | .switching _ ms => .switching (some p) ms
  | other => other

theorem leaveFootprint_eq (r : Coil) : r.leaveFootprint = { r with state := r.state.left } := by
  obtain ⟨_, _, _, _, state, _⟩ := r
  cases state <;> rfl

theorem joinFootprint_eq (p : PanId) (legPan : Option PanId) (r : Coil) :
    r.joinFootprint p legPan = { r with state := r.state.joined legPan p } := by
  obtain ⟨_, _, _, _, state, _⟩ := r
  cases state with
  | releasing o n off =>
    simp only [Coil.joinFootprint, CoilState.joined]
    split <;> rfl
  | _ => rfl

theorem owner_left (st : CoilState) : st.left.owner = none := by cases st <;> rfl

/-- A coil that no pan owns has nothing to leave. -/
theorem left_of_unowned {st : CoilState} (h : st.owner = none) : st.left = st := by
  cases st with
  | claimed o => cases h
  | driven o n => cases h
  | transfer o n p => cases h
  | releasing o n off => cases h; rfl
  | switching o ms => cases h; rfl
  | _ => rfl

theorem owner_of_inLeg {st : CoilState} (h : st.inLeg = true) : st.owner.isSome = true := by
  cases st with
  | driven o n => rfl
  | transfer o n p => rfl
  | _ => cases h

section
variable {s t : State} {c d : CoilNo}

theorem order_left (st : CoilState) : st.left.order = st.order := by
  cases st <;> rfl

/-- A coil record on its way to the owner of its footprint, if any. -/
def State.joinedCoil (s : State) (c : CoilNo) : Coil :=
  match s.holder c with
  | some o => (s.coil c).joinFootprint o (s.legPan c)
  | none => s.coil c

theorem legPan_congr (hd : ∀ g, t.desk g = s.desk g) (hdriver : (t.coil c).driver = (s.coil c).driver)
    (horder : (t.coil c).state.order = (s.coil c).state.order) : t.legPan c = s.legPan c := by
  simp only [State.legPan, State.driverGen, hdriver, hd, horder]

theorem legPan_setCoil (h : c ≠ d) (r : Coil) : (s.setCoil d r).legPan c = s.legPan c :=
  legPan_congr (fun _ => rfl) (by rw [State.coil_setCoil, if_neg h]) (by rw [State.coil_setCoil, if_neg h])

/-- A coil record once its owner has followed the footprints. -/
def Coil.owned (holder legPan : Option PanId) (r : Coil) : Coil :=
  if r.state.owner = holder then r
  else match holder with
    | some p => { r with state := r.state.left.joined legPan p }
    | none => { r with state := r.state.left }

/-- A coil record of the state once the owners have followed the footprints. -/
def State.ownedCoil (s : State) (c : CoilNo) : Coil := (s.coil c).owned (s.holder c) (s.legPan c)

/-- The state once the coils that left a footprint have lost their owner. -/
def State.disowned (s : State) : State := s.withCoils fun c => if c ∈ s.leavers then (s.coil c).leaveFootprint else s.coil c

theorem mem_leavers : c ∈ s.leavers ↔ (s.coil c).state.owner.isSome = true ∧ (s.coil c).state.owner ≠ s.holder c := by
  simp only [State.leavers, List.mem_filter, mem_allCoils, true_and, Bool.and_eq_true, decide_eq_true_eq]

theorem mem_joiners : c ∈ s.joiners ↔ (s.holder c).isSome = true ∧ (s.coil c).state.owner ≠ s.holder c := by
  simp only [State.joiners, List.mem_filter, mem_allCoils, true_and, Bool.and_eq_true, decide_eq_true_eq]

theorem holder_disowned (s : State) (c : CoilNo) : s.disowned.holder c = s.holder c := by
  have hid : s.disowned.panId = s.panId := funext fun n => by simp only [State.panId, State.disowned, pan_withCoils]
  simp only [State.holder, hid]
  simp only [State.disowned, pan_withCoils]

theorem coil_disowned_owned (h : (s.coil c).state.owner = s.holder c) : s.disowned.coil c = s.coil c := by
  rw [State.disowned, coil_withCoils, if_neg fun hc => (mem_leavers.mp hc).2 h]

theorem coil_disowned_left (h : (s.coil c).state.owner ≠ s.holder c) :
    s.disowned.coil c = { s.coil c with state := (s.coil c).state.left } := by
  rw [State.disowned, coil_withCoils]
  split
  · exact leaveFootprint_eq _
  · next hno =>
    have hnone : (s.coil c).state.owner = none := by
      by_contra ho
      exact hno (mem_leavers.mpr ⟨Option.ne_none_iff_isSome.mp ho, h⟩)
    rw [left_of_unowned hnone]

theorem legPan_disowned (h : (s.coil c).state.owner ≠ s.holder c) : s.disowned.legPan c = s.legPan c := by
  refine legPan_congr (fun g => ?_) ?_ ?_
  · rw [State.disowned, desk_withCoils]
  · rw [coil_disowned_left h]
  · rw [coil_disowned_left h]
    exact order_left _

/-- First the leaving, then the joining. -/
theorem ownedCoil_eq (s : State) (c : CoilNo) :
    (if c ∈ s.disowned.joiners then s.disowned.joinedCoil c else s.disowned.coil c) = s.ownedCoil c := by
  unfold State.ownedCoil Coil.owned
  by_cases h : (s.coil c).state.owner = s.holder c
  · rw [if_pos h, if_neg, coil_disowned_owned h]
    rw [mem_joiners, holder_disowned, coil_disowned_owned h]
    exact fun hc => hc.2 h
  · have hjoins : c ∈ s.disowned.joiners ↔ (s.holder c).isSome = true := by
      rw [mem_joiners, holder_disowned, coil_disowned_left h]
      simp only [owner_left]
      refine ⟨And.left, fun hsome => ⟨hsome, fun hnone => ?_⟩⟩
      rw [← hnone] at hsome
      cases hsome
    simp only [if_neg h, hjoins, State.joinedCoil, holder_disowned]
    cases hh : s.holder c with
    | none => exact coil_disowned_left h
    | some p =>
      simp only [Option.isSome_some, if_true]
      rw [joinFootprint_eq, legPan_disowned h, coil_disowned_left h]

theorem codeOk_leaveFootprint (r : Coil) : r.leaveFootprint.codeOk = r.codeOk := by rw [leaveFootprint_eq]

theorem stepOwners_of_sound (hs : s.Sound) : stepOwners s = reportAll ((s.leavers.filter fun c => (s.coil c).state.inLeg).map s.driverGen)
    (s.withCoils s.ownedCoil) ∧ (s.withCoils s.ownedCoil).Sound := by
  have hleave := forEach_editCoil_of_sound (f := fun _ => Coil.leaveFootprint) (fun _ r hr => (codeOk_leaveFootprint r).trans hr) s.leavers
    (nodup_allCoils.filter _) hs
  have hdisowned : s.disowned.Sound := sound_withCoils hs fun c => by
    split
    · exact (codeOk_leaveFootprint _).trans (hs.coils c)
    · exact hs.coils c
  have hjoined : ∀ t : State, t.Sound → ∀ c, (t.joinedCoil c).codeOk = true := fun t ht c => by
    unfold State.joinedCoil
    split
    · rw [joinFootprint_eq]
      exact ht.coils c
    · exact ht.coils c
  have hjoin := forEach_coilWork_of_sound (f := State.joinedCoil) (work := fun c s => match s.holder c with
      | some o => editCoil c (Coil.joinFootprint o (s.legPan c)) s
      | none => .ok s)
    (fun c t ht => ⟨by
      have hok := hjoined t ht c
      unfold State.joinedCoil at hok ⊢
      cases hh : t.holder c with
      | none => rw [State.setCoil_coil]
      | some o =>
        rw [hh] at hok
        exact editCoil_of_sound ht c hok, hjoined t ht c⟩)
    (fun t c d r hd => by
      have hholder : (t.setCoil d r).holder c = t.holder c := rfl
      unfold State.joinedCoil
      rw [hholder, legPan_setCoil (Ne.symm hd), State.coil_setCoil, if_neg (Ne.symm hd)])
    s.disowned.joiners (nodup_allCoils.filter _) hdisowned
  have howned : (s.disowned.withCoils fun c => if c ∈ s.disowned.joiners then s.disowned.joinedCoil c else s.disowned.coil c) =
      s.withCoils s.ownedCoil := by
    rw [funext (ownedCoil_eq s), State.disowned, withCoils_withCoils]
  refine ⟨?_, sound_withCoils hs fun c => ?_⟩
  · rw [stepOwners, hleave, Flow.ok_andThen, ← howned]
    exact congrArg (fun f : Flow => f.andThen _) hjoin
  · rw [← ownedCoil_eq]
    split
    · exact hjoined _ hdisowned c
    · exact hdisowned.coils c

theorem robbedOwners_eq (s : State) : (s.leavers.filter fun c => (s.coil c).state.inLeg) =
    allCoils.filter fun c => (s.coil c).state.inLeg && decide ((s.coil c).state.owner ≠ s.holder c) := by
  rw [State.leavers, List.filter_filter]
  refine List.filter_congr fun c _ => ?_
  cases hleg : (s.coil c).state.inLeg with
  | false => rfl
  | true => rw [owner_of_inLeg hleg, Bool.true_and]

end

/-- Settles O58: the two passes of step 7, coil by coil. -/
theorem ownersFollowFootprints : Obligations.OwnersFollowFootprints := by
  unfold Obligations.OwnersFollowFootprints
  intro s hs holder legPan left joined owned robbed
  have hlegPan : s.legPan = legPan := funext fun c => by
    unfold State.legPan
    cases ho : (s.desk (s.driverGen c)).order with
    | none => simp only [legPan, ho, Option.bind_none, Option.map_none]
    | some o =>
      simp only [legPan, ho, Option.bind_some]
      split <;> rfl
  have howned : s.withCoils s.ownedCoil = owned := by
    unfold State.ownedCoil
    rw [withCoils_eq, hlegPan]
    rfl
  obtain ⟨heq, hsound⟩ := stepOwners_of_sound hs
  rw [robbedOwners_eq, howned] at heq
  rw [howned] at hsound
  obtain ⟨t, ht⟩ := Run.reported (gs := robbed) hsound
  exact ⟨t, heq.trans ht.work, ht⟩

end Sys2Proof.Machine

/-! PROOFS. Picks, candidates and returns (R45, R49 to R52). -/

namespace Sys2Proof.Machine

/-! ## Picks (R45) -/

theorem head_lt_asymm (k m : Component) (h : k.coils.head? < m.coils.head?) : ¬ m.coils.head? < k.coils.head? := by
  revert h
  cases k.coils.head? <;> cases m.coils.head? <;> simp
  exact le_of_lt

theorem pickFor_iff {footprint : List CoilNo} {comps : List Component} {k : Component}
    (hc : comps.Pairwise fun k m => k.coils.head? < m.coils.head?) : pickFor footprint comps = some k ↔ IsPick footprint comps k := by
  have hbefore : (fun a b : Component => decide (overlap b.coils footprint < overlap a.coils footprint ∨
      (overlap a.coils footprint = overlap b.coils footprint ∧ b.total < a.total))) = fun a b =>
        decide (toLex (overlap b.coils footprint, b.total) < toLex (overlap a.coils footprint, a.total)) := by
    funext a b
    simp only [Prod.Lex.toLex_lt_toLex, eq_comm]
  rw [pickFor, hbefore, bestBy_key_iff (key := fun k : Component => toLex (overlap k.coils footprint, k.total)) head_lt_asymm (hc.filter _)]
  simp only [List.mem_filter, decide_eq_true_eq, Prod.Lex.toLex_lt_toLex, toLex_inj, Prod.mk.injEq]
  constructor
  · rintro ⟨⟨hmem, hshares⟩, hbest⟩
    refine ⟨hmem, hshares, fun m hm hne => ?_⟩
    by_cases hzero : overlap m.coils footprint = 0
    · exact .inl (by omega)
    · rcases hbest m ⟨hm, hzero⟩ hne with (h | ⟨h, ht⟩) | ⟨⟨h, ht⟩, hfirst⟩
      · exact .inl h
      · exact .inr ⟨h, .inl ht⟩
      · exact .inr ⟨h, .inr ⟨ht, hfirst⟩⟩
  · rintro ⟨hmem, hshares, hbest⟩
    refine ⟨⟨hmem, hshares⟩, fun m hm hne => ?_⟩
    rcases hbest m hm.1 hne with h | ⟨h, ht | ⟨ht, hfirst⟩⟩
    · exact .inl (.inl h)
    · exact .inl (.inr ⟨h, ht⟩)
    · exact .inr ⟨⟨h, ht⟩, hfirst⟩

/-! ## Candidates and the components they take (R49) -/

theorem zipIdx_sorted {α : Type} (l : List α) : l.zipIdx.Pairwise fun a b => a.2 < b.2 :=
  List.pairwise_map.mp (by rw [List.zipIdx_map_snd]; exact List.pairwise_lt_range')

section
variable {cands : List Candidate} {unpicked : List Component}

theorem claims_sorted (cands : List Candidate) (unpicked : List Component) :
    (claims cands unpicked).Pairwise fun a b => a.index < b.index := by
  unfold claims
  refine List.Pairwise.filterMap (R := fun a b : Candidate × Nat => a.2 < b.2) _ (fun a b hab x hx y hy => ?_) (zipIdx_sorted cands)
  obtain ⟨_, _, rfl⟩ := Option.map_eq_some_iff.mp hx
  obtain ⟨_, _, rfl⟩ := Option.map_eq_some_iff.mp hy
  exact hab

theorem claim_spec {c : Claim} : c ∈ claims cands unpicked ↔
    cands[c.index]? = some c.candidate ∧ pickFor c.candidate.footprint unpicked = some c.component := by
  obtain ⟨index, candidate, component⟩ := c
  simp only [claims, List.mem_filterMap, Option.map_eq_some_iff, Claim.mk.injEq, Prod.exists, List.mem_zipIdx_iff_getElem?]
  constructor
  · rintro ⟨x, i, hx, k, hk, rfl, rfl, rfl⟩
    exact ⟨hx, hk⟩
  · rintro ⟨hx, hk⟩
    exact ⟨candidate, index, hx, component, hk, rfl, rfl, rfl⟩

theorem claim_unique {a b : Claim} (ha : a ∈ claims cands unpicked) (hb : b ∈ claims cands unpicked) (h : a.index = b.index) : a = b := by
  obtain ⟨i, x, k⟩ := a
  obtain ⟨j, y, m⟩ := b
  obtain ⟨hx, hk⟩ := claim_spec.mp ha
  obtain ⟨hy, hm⟩ := claim_spec.mp hb
  cases h
  cases hx.symm.trans hy
  cases hk.symm.trans hm
  rfl

theorem winner_iff {k : Component} {w : Claim} : winner (claims cands unpicked) k = some w ↔
    (w ∈ claims cands unpicked ∧ w.component = k) ∧ ∀ z ∈ claims cands unpicked, z.component = k → z ≠ w →
      overlap k.coils z.candidate.footprint < overlap k.coils w.candidate.footprint ∨
        (overlap k.coils z.candidate.footprint = overlap k.coils w.candidate.footprint ∧ w.index < z.index) := by
  rw [winner, bestBy_key_iff (key := fun c : Claim => overlap k.coils c.candidate.footprint) (fun _ _ => lt_asymm)
    ((claims_sorted cands unpicked).filter _)]
  simp only [List.mem_filter, decide_eq_true_eq, and_imp]

/-- A component that some candidate wants has a winner. -/
theorem winner_isNone {k : Component} :
    (winner (claims cands unpicked) k).isNone = true ↔ ∀ c ∈ claims cands unpicked, c.component ≠ k := by
  rw [Option.isNone_iff_eq_none, winner, bestBy_eq_none_iff, List.filter_eq_nil_iff]
  simp only [decide_eq_true_eq, ne_eq]

theorem takenBy_iff_winner {i : Nat} {k : Component} : takenBy (claims cands unpicked) i = some k ↔
    ∃ w, winner (claims cands unpicked) k = some w ∧ w.index = i := by
  unfold takenBy
  cases hfind : (claims cands unpicked).find? fun c => decide (c.index = i) with
  | none =>
    refine iff_of_false nofun ?_
    rintro ⟨w, hw, hi⟩
    exact List.find?_eq_none.mp hfind w (winner_iff.mp hw).1.1 (decide_eq_true hi)
  | some c =>
    have hc := List.mem_of_find?_eq_some hfind
    have hi : c.index = i := by simpa using List.find?_some hfind
    constructor
    · intro h
      simp only at h
      split at h
      · next w hw =>
        split at h
        · next hwi => exact ⟨w, Option.some.inj h ▸ hw, hwi⟩
        · cases h
      · cases h
    · rintro ⟨w, hw, hwi⟩
      obtain ⟨⟨hmem, hk⟩, _⟩ := winner_iff.mp hw
      have hcw : c = w := claim_unique hc hmem (hi.trans hwi.symm)
      have hck : c.component = k := hcw ▸ hk
      simp only [hck, hw, hwi, if_true]

end

section
variable {cands : List Candidate} {unpicked : List Component} (hu : unpicked.Pairwise fun k m => k.coils.head? < m.coils.head?)
include hu

theorem mem_claims {c : Claim} : c ∈ claims cands unpicked ↔
    cands[c.index]? = some c.candidate ∧ IsPick c.candidate.footprint unpicked c.component := by
  rw [claim_spec, pickFor_iff hu]

theorem takenBy_iff {i : Nat} {k : Component} : takenBy (claims cands unpicked) i = some k ↔
    ∃ c, cands[i]? = some c ∧ IsPick c.footprint unpicked k ∧
      ∀ j d, j ≠ i → cands[j]? = some d → IsPick d.footprint unpicked k →
        overlap k.coils d.footprint < overlap k.coils c.footprint ∨
          (overlap k.coils d.footprint = overlap k.coils c.footprint ∧ i < j) := by
  rw [takenBy_iff_winner]
  constructor
  · rintro ⟨w, hw, rfl⟩
    obtain ⟨⟨hmem, rfl⟩, hbest⟩ := winner_iff.mp hw
    obtain ⟨hget, hpick⟩ := (mem_claims hu).mp hmem
    exact ⟨w.candidate, hget, hpick, fun j d hj hd hk => hbest ⟨j, d, w.component⟩ ((mem_claims hu).mpr ⟨hd, hk⟩) rfl
      fun h => hj (congrArg Claim.index h)⟩
  · rintro ⟨c, hget, hpick, hbest⟩
    refine ⟨⟨i, c, k⟩, winner_iff.mpr ⟨⟨(mem_claims hu).mpr ⟨hget, hpick⟩, rfl⟩, ?_⟩, rfl⟩
    rintro z hz rfl hne
    obtain ⟨hzget, hzpick⟩ := (mem_claims hu).mp hz
    exact hbest z.index z.candidate (fun h => hne (claim_unique hz ((mem_claims hu).mpr ⟨hget, hpick⟩) h)) hzget hzpick

theorem untaken_eq : untaken unpicked (claims cands unpicked) =
    unpicked.filter fun k => decide (∀ i ∈ List.range cands.length, takenBy (claims cands unpicked) i ≠ some k) := by
  refine List.filter_congr fun k _ => ?_
  rw [Bool.eq_iff_iff, winner_isNone, decide_eq_true_iff]
  constructor
  · intro h i _ ht
    obtain ⟨w, hw, _⟩ := takenBy_iff_winner.mp ht
    obtain ⟨⟨hmem, hk⟩, _⟩ := winner_iff.mp hw
    exact h w hmem hk
  · intro h c hc hk
    cases hw : winner (claims cands unpicked) k with
    | none => exact winner_isNone.mp (Option.isNone_iff_eq_none.mpr hw) c hc hk
    | some w =>
      obtain ⟨hget, _⟩ := (mem_claims hu).mp (winner_iff.mp hw).1.1
      exact h w.index (List.mem_range.mpr (List.getElem?_eq_some_iff.mp hget).1) (takenBy_iff_winner.mpr ⟨w, hw, rfl⟩)

end

/-! ## New candidates (R52) -/

theorem addCandidates_eq : ∀ (l : List Component) (cands : List Candidate),
    addCandidates l cands = cands ++ (l.take (4 - cands.length)).map Candidate.ofComponent
  | [], cands => by rw [addCandidates, List.take_nil, List.map_nil, List.append_nil]
  | k :: rest, cands => by
    have hroom : Config.candidateRoom = 4 := rfl
    rw [addCandidates, addCandidates_eq rest, hroom]
    by_cases h : cands.length < 4
    · obtain ⟨r, hr⟩ : ∃ r, 4 - cands.length = r + 1 := ⟨3 - cands.length, by omega⟩
      have hnext : 4 - (cands ++ [Candidate.ofComponent k]).length = r := by
        rw [List.length_append, List.length_singleton]
        omega
      rw [if_pos h, hnext, hr, List.take_succ_cons, List.map_cons, List.append_assoc, List.singleton_append]
    · have hfull : 4 - cands.length = 0 := by omega
      rw [if_neg h, hfull, List.take_zero, List.take_zero]

/-! ## Returns (R50, R51) -/

theorem returning_iff (s : State) (k : Component) (n : Slot) :
    let near : Slot → Nat → Prop := fun m d => (s.pan m).state = .lost ∧ ∃ p, (s.pan m).centre = some p ∧
      d = max (max p.col k.centre.col - min p.col k.centre.col) (max p.row k.centre.row - min p.row k.centre.row) ∧ d ≤ 8
    s.returning k = some n ↔ 8 ≤ k.total ∧ ∃ d, near n d ∧ ∀ m e, m ≠ n → near m e → d < e ∨ (d = e ∧ n < m) := by
  intro near
  have hnear : ∀ m e, near m e ↔ ((s.pan m).state = .lost ∧ s.distanceTo k m ≤ 8) ∧ e = s.distanceTo k m := fun m e => by
    simp only [near, State.distanceTo]
    cases (s.pan m).centre with
    | none => simp [Config.returnRadius]
    | some p =>
      simp only [Option.some.injEq, exists_eq_left', distance]
      constructor
      · rintro ⟨hl, rfl, hd⟩
        exact ⟨⟨hl, hd⟩, rfl⟩
      · rintro ⟨⟨hl, hd⟩, rfl⟩
        exact ⟨hl, rfl, hd⟩
  unfold State.returning
  by_cases ht : 8 ≤ k.total
  · have hbest := bestBy_key_iff (key := fun n => OrderDual.toDual (s.distanceTo k n)) (r := fun a b : Slot => a < b) (fun _ _ => lt_asymm)
      (sorted_allSlots.filter fun n => decide ((s.pan n).state = .lost ∧ s.distanceTo k n ≤ 8)) (x := n)
    simp only [OrderDual.toDual_lt_toDual, OrderDual.toDual_inj, List.mem_filter, mem_allSlots, true_and, decide_eq_true_eq] at hbest
    rw [if_pos (show Config.minTotal ≤ k.total from ht)]
    refine hbest.trans ?_
    simp only [hnear, ht, true_and]
    constructor
    · rintro ⟨hn, hfirst⟩
      refine ⟨_, ⟨hn, rfl⟩, ?_⟩
      rintro m e hm ⟨hnm, rfl⟩
      exact (hfirst m hnm hm).imp id fun h => ⟨h.1.symm, h.2⟩
    · rintro ⟨_, ⟨hn, rfl⟩, hfirst⟩
      exact ⟨hn, fun m hnm hm => (hfirst m _ hm ⟨hnm, rfl⟩).imp id fun h => ⟨h.1.symm, h.2⟩⟩
  · rw [if_neg (show ¬ Config.minTotal ≤ k.total from ht)]
    exact iff_of_false nofun fun h => ht h.1

end Sys2Proof.Machine

/-! PROOFS. Step 5 whole: candidates renewed, LOST pans brought back, new candidates (R49 to R52). -/

namespace Sys2Proof.Machine

/-- A LOST pan as a component brings it back. -/
def State.broughtBack (s x : State) (n : Slot) (k : Component) : State :=
  (x.setPan n { x.pan n with
    state := .present, footprint := k.coils, centre := some k.centre, total := k.total, lostRemaining := none
    held := (x.pan n).held || (x.pan n).holdOnLift }).postEvent
      ⟨.panReturned, s.now % 65536, some ⟨n, some (s.pan n).tag⟩, none, none, none⟩

/-- What one component left over does: it brings a LOST pan back, or it stays over. -/
def bringBack (s : State) (x : State × List Component) (k : Component) : State × List Component :=
  match x.1.returning k with
  | some n => (s.broughtBack x.1 n k, x.2)
  | none => (x.1, x.2 ++ [k])

/-- The state with these candidates. -/
def State.withCandidates (s : State) (cs : List Candidate) : State := { s with candidates := cs }

theorem withCandidates_postEvent (s : State) (cs : List Candidate) (e : Event) :
    (s.withCandidates cs).postEvent e = (s.postEvent e).withCandidates cs := by
  unfold State.postEvent State.withCandidates
  simp only
  repeat' split
  all_goals rfl

theorem sound_withCandidates {s : State} (hs : s.Sound) (cs : List Candidate) : (s.withCandidates cs).Sound :=
  ⟨hs.coils, hs.pans, hs.orders, hs.levels, hs.marks⟩

section
variable {s x : State} {k : Component} {n : Slot} {cands : List Candidate}

/-- The clock and the tags are those of the state before the step. -/
def SameNames (s x : State) : Prop := x.now = s.now ∧ ∀ n, (x.pan n).tag = (s.pan n).tag

theorem sameNames_broughtBack (h : SameNames s x) (n : Slot) (k : Component) : SameNames s (s.broughtBack x n k) := by
  unfold State.broughtBack
  refine ⟨(State.now_postEvent _ _).trans h.1, fun m => ?_⟩
  rw [State.pan_postEvent, State.pan_setPan]
  split
  · next hm =>
    cases hm
    exact h.2 n
  · exact h.2 m

theorem sound_broughtBack (hx : x.Sound) (n : Slot) (k : Component) : (s.broughtBack x n k).Sound := by
  unfold State.broughtBack
  refine sound_postEvent (hx.setPan n ?_) _
  exact hx.pans n

theorem return_of_sound (hx : x.Sound) (h : SameNames s x) (hr : x.returning k = some n) (rest left : List Component) :
    stepReturn (k :: rest) left (x.withCandidates cands) = stepReturn rest left ((s.broughtBack x n k).withCandidates cands) := by
  have hreturning : (x.withCandidates cands).returning k = some n := hr
  have hok : ((x.pan n).returned k).codeOk = true := hx.pans n
  have hwritten : (x.withCandidates cands).setPan n ((x.pan n).returned k) = (x.setPan n ((x.pan n).returned k)).withCandidates cands := rfl
  have hpost : ((x.setPan n ((x.pan n).returned k)).withCandidates cands).postPan .panReturned
      (((x.setPan n ((x.pan n).returned k)).withCandidates cands).panId n) = (s.broughtBack x n k).withCandidates cands := by
    have hid : ((x.setPan n ((x.pan n).returned k)).withCandidates cands).panId n = ⟨n, (s.pan n).tag⟩ := by
      rw [← h.2 n]
      exact panId_setPan (p := (x.pan n).returned k) rfl
    rw [State.postPan, withCandidates_postEvent, hid, State.broughtBack, ← h.1]
    rfl
  rw [stepReturn, hreturning]
  simp only
  rw [editPan_of_sound (sound_withCandidates hx cands) n (f := Pan.returned k) hok, Flow.ok_andThen]
  exact congrArg (stepReturn rest left) ((congrArg (fun t : State => t.postPan .panReturned (t.panId n)) hwritten).trans hpost)

theorem leftover_eq (hr : x.returning k = none) (rest left : List Component) :
    stepReturn (k :: rest) left (x.withCandidates cands) = stepReturn rest (left ++ [k]) (x.withCandidates cands) := by
  have hreturning : (x.withCandidates cands).returning k = none := hr
  rw [stepReturn, hreturning]

theorem stepReturn_of_sound : ∀ (l left : List Component) {x : State}, x.Sound → SameNames s x →
    stepReturn l left (x.withCandidates cands) = .ok ((l.foldl (bringBack s) (x, left)).1.withCandidates
      (addCandidates (l.foldl (bringBack s) (x, left)).2 cands)) ∧ (l.foldl (bringBack s) (x, left)).1.Sound
  | [], _, _, hx, _ => ⟨rfl, hx⟩
  | k :: rest, left, x, hx, h => by
    rw [List.foldl_cons]
    cases hr : x.returning k with
    | some n =>
      have hbring : bringBack s (x, left) k = (s.broughtBack x n k, left) := by simp only [bringBack, hr]
      rw [return_of_sound hx h hr, hbring]
      exact stepReturn_of_sound rest left (sound_broughtBack hx n k) (sameNames_broughtBack h n k)
    | none =>
      have hbring : bringBack s (x, left) k = (x, left ++ [k]) := by simp only [bringBack, hr]
      rw [leftover_eq hr, hbring]
      exact stepReturn_of_sound rest (left ++ [k]) hx h

end

/-- Settles O57: what each candidate takes is `takenBy_iff`; the rest is the fold of `bringBack`. -/
theorem candidatesAndReturns : Obligations.CandidatesAndReturns := by
  unfold Obligations.CandidatesAndReturns
  refine ⟨fun s unpicked hs hu => ?_, returning_iff⟩
  obtain ⟨cs, hcs⟩ : ∃ cs, cs = claims s.candidates unpicked := ⟨_, rfl⟩
  obtain ⟨renewed, hrenewed⟩ : ∃ l, l = renewCandidates s.params.confirmCount s.candidates cs := ⟨_, rfl⟩
  obtain ⟨hwork, hsound⟩ := stepReturn_of_sound (cands := renewed) (untaken unpicked cs) [] hs ⟨rfl, fun _ => rfl⟩
  obtain ⟨t, ht⟩ : ∃ t : State × List Component, t = (untaken unpicked cs).foldl (bringBack s) (s, []) := ⟨_, rfl⟩
  rw [← ht] at hwork hsound
  have hstep : stepCandidates unpicked s = .ok (t.1.withCandidates (addCandidates t.2 renewed)) := by
    rw [stepCandidates, ← hcs, ← hrenewed]
    exact hwork
  refine ⟨takenBy cs, _, hstep, sound_withCandidates hsound _, fun i k => hcs ▸ takenBy_iff hu, ?_⟩
  intro renewed' left bring brought
  have hleft : untaken unpicked cs = left := by
    subst hcs
    exact untaken_eq hu
  have hbrought : t = brought := by
    rw [ht, hleft]
    rfl
  have hsame : renewed = renewed' := hrenewed
  rw [addCandidates_eq, hbrought, hsame]
  rfl

end Sys2Proof.Machine

/-! PROOFS. The component list: masks, their growth by neighbours, and the sets it divides the coils into (R30, R32 to R34). -/

namespace Sys2Proof.Machine

/-! ## Masks of coils -/

theorem getLsbD_coilMask_from (d : CoilNo) : ∀ (cs : List CoilNo) (m : BitVec 48),
    (cs.foldl (fun m c => m ||| (1#48 <<< c.val)) m).getLsbD d.val = (m.getLsbD d.val || decide (d ∈ cs))
  | [], m => by simp
  | c :: cs, m => by
    have hbit : (1#48 <<< c.val).getLsbD d.val = decide (d = c) := by
      revert c d
      decide
    rw [List.foldl_cons, getLsbD_coilMask_from d cs, BitVec.getLsbD_or, hbit, Bool.or_assoc, ← Bool.decide_or]
    simp only [List.mem_cons]

theorem mem_coilMask (cs : List CoilNo) (d : CoilNo) : (coilMask cs).getLsbD d.val = true ↔ d ∈ cs := by
  have hzero : (0 : BitVec 48).getLsbD d.val = false := by simp
  rw [coilMask, getLsbD_coilMask_from, hzero, Bool.false_or, decide_eq_true_iff]

theorem mem_maskCoils {m : BitVec 48} {c : CoilNo} : c ∈ maskCoils m ↔ m.getLsbD c.val = true := by
  simp only [maskCoils, List.mem_filter, mem_allCoils, true_and]

theorem Neighbours.symm {a b : CoilNo} (h : Neighbours a b) : Neighbours b a := by
  unfold Neighbours at *
  omega

theorem getLsbD_columnMask (k : Nat) (c : CoilNo) : (columnMask k).getLsbD c.val = decide (column c = k) := by
  rw [Bool.eq_iff_iff, columnMask, mem_coilMask, List.mem_filter]
  simp only [mem_allCoils, true_and]

section
variable {m : BitVec 48} {d : CoilNo}

theorem mem_spread_right : ((m &&& ~~~(columnMask 7)) <<< 1).getLsbD d.val = true ↔
    ∃ c : CoilNo, m.getLsbD c.val = true ∧ row c = row d ∧ column c + 1 = column d := by
  simp only [BitVec.getLsbD_shiftLeft, BitVec.getLsbD_and, BitVec.getLsbD_not, Bool.and_eq_true, decide_eq_true_eq, Bool.not_eq_true',
    decide_eq_false_iff_not]
  unfold row column
  constructor
  · rintro ⟨⟨_, hd⟩, hm, _, hc⟩
    have hcol := getLsbD_columnMask 7 ⟨d.val - 1, by omega⟩
    rw [hc] at hcol
    have hne : (d.val - 1) % 8 ≠ 7 := of_decide_eq_false hcol.symm
    exact ⟨⟨d.val - 1, by omega⟩, hm, by simp only; omega, by simp only; omega⟩
  · rintro ⟨c, hm, hr, hcol⟩
    have hcd : d.val - 1 = c.val := by omega
    have hmask : (columnMask 7).getLsbD c.val = false := by
      rw [getLsbD_columnMask]
      exact decide_eq_false (by unfold column; omega)
    rw [hcd]
    exact ⟨⟨d.isLt, by omega⟩, hm, c.isLt, hmask⟩

theorem mem_spread_left : ((m &&& ~~~(columnMask 0)) >>> 1).getLsbD d.val = true ↔
    ∃ c : CoilNo, m.getLsbD c.val = true ∧ row c = row d ∧ column d + 1 = column c := by
  simp only [BitVec.getLsbD_ushiftRight, BitVec.getLsbD_and, BitVec.getLsbD_not, Bool.and_eq_true, decide_eq_true_eq, Bool.not_eq_true']
  unfold row column
  constructor
  · rintro ⟨hm, hlt, hc⟩
    have hcol := getLsbD_columnMask 0 ⟨1 + d.val, hlt⟩
    rw [hc] at hcol
    have hne : (1 + d.val) % 8 ≠ 0 := of_decide_eq_false hcol.symm
    exact ⟨⟨1 + d.val, hlt⟩, hm, by simp only; omega, by simp only; omega⟩
  · rintro ⟨c, hm, hr, hcol⟩
    have hcd : 1 + d.val = c.val := by omega
    have hmask : (columnMask 0).getLsbD c.val = false := by
      rw [getLsbD_columnMask]
      exact decide_eq_false (by unfold column; omega)
    rw [hcd]
    exact ⟨hm, c.isLt, hmask⟩

theorem mem_spread_behind : (m <<< 8).getLsbD d.val = true ↔
    ∃ c : CoilNo, m.getLsbD c.val = true ∧ column c = column d ∧ row c + 1 = row d := by
  simp only [BitVec.getLsbD_shiftLeft, Bool.and_eq_true, decide_eq_true_eq, Bool.not_eq_true', decide_eq_false_iff_not]
  unfold row column
  constructor
  · rintro ⟨⟨_, hd⟩, hm⟩
    exact ⟨⟨d.val - 8, by omega⟩, hm, by simp only; omega, by simp only; omega⟩
  · rintro ⟨c, hm, hcol, hr⟩
    have hcd : d.val - 8 = c.val := by omega
    rw [hcd]
    exact ⟨⟨d.isLt, by omega⟩, hm⟩

theorem mem_spread_front : (m >>> 8).getLsbD d.val = true ↔
    ∃ c : CoilNo, m.getLsbD c.val = true ∧ column c = column d ∧ row d + 1 = row c := by
  simp only [BitVec.getLsbD_ushiftRight]
  unfold row column
  constructor
  · intro hm
    have hlt : 8 + d.val < 48 := BitVec.lt_of_getLsbD hm
    exact ⟨⟨8 + d.val, hlt⟩, hm, by simp only; omega, by simp only; omega⟩
  · rintro ⟨c, hm, hcol, hr⟩
    have hcd : 8 + d.val = c.val := by omega
    rw [hcd]
    exact hm

/-- The coils of a spread mask: its own and their neighbours. -/
theorem mem_spread : (spread m).getLsbD d.val = true ↔
    m.getLsbD d.val = true ∨ ∃ c : CoilNo, m.getLsbD c.val = true ∧ Neighbours c d := by
  unfold spread
  rw [BitVec.getLsbD_or, BitVec.getLsbD_or, BitVec.getLsbD_or, BitVec.getLsbD_or]
  simp only [Bool.or_eq_true, mem_spread_right, mem_spread_left, mem_spread_behind, mem_spread_front, or_assoc, ← exists_or, ← and_or_left]
  refine or_congr_right (exists_congr fun c => and_congr_right fun _ => ?_)
  unfold Neighbours
  omega

end

/-! ## Growth (R32) -/

/-- The coils of the first mask are coils of the second. -/
def Within (m q : BitVec 48) : Prop := ∀ c : CoilNo, m.getLsbD c.val = true → q.getLsbD c.val = true

/-- Neighbours that are both coils of the mask. -/
def Joined (m : BitVec 48) (a b : CoilNo) : Prop := Neighbours a b ∧ m.getLsbD a.val = true ∧ m.getLsbD b.val = true

/-- Every coil of the mask is joined to the first by coils of the mask. -/
def Connected (m : BitVec 48) (c : CoilNo) : Prop := ∀ d : CoilNo, m.getLsbD d.val = true → Relation.ReflTransGen (Joined m) c d

/-- No neighbour of the mask among the coils of the other is missing. -/
def Whole (q m : BitVec 48) : Prop :=
  ∀ c d : CoilNo, m.getLsbD c.val = true → Neighbours c d → q.getLsbD d.val = true → m.getLsbD d.val = true

/-- How many coils a mask has. -/
def coilCount (m : BitVec 48) : Nat := (maskCoils m).length

section
variable {q m : BitVec 48} {c : CoilNo}

theorem mem_grown {d : CoilNo} : (spread m &&& q).getLsbD d.val = true ↔
    (m.getLsbD d.val = true ∨ ∃ c : CoilNo, m.getLsbD c.val = true ∧ Neighbours c d) ∧ q.getLsbD d.val = true := by
  rw [BitVec.getLsbD_and, Bool.and_eq_true, mem_spread]

theorem within_grown (h : Within m q) : Within m (spread m &&& q) := fun c hc => mem_grown.mpr ⟨.inl hc, h c hc⟩

theorem Connected.grown (h : Within m q) (hc : Connected m c) : Connected (spread m &&& q) c := by
  have hmono : ∀ a b, Joined m a b → Joined (spread m &&& q) a b := fun a b ⟨hn, ha, hb⟩ => ⟨hn, within_grown h a ha, within_grown h b hb⟩
  intro d hd
  rcases mem_grown.mp hd with ⟨hm | ⟨e, he, hn⟩, _⟩
  · exact Relation.ReflTransGen.mono hmono _ _ (hc d hm)
  · exact (Relation.ReflTransGen.mono hmono _ _ (hc e he)).tail ⟨hn, within_grown h e he, hd⟩

/-- A mask that grows no more is whole. -/
theorem whole_of_fixed (h : spread m &&& q = m) : Whole q m := fun c d hc hn hd => by
  rw [← h]
  exact mem_grown.mpr ⟨.inr ⟨c, hc, hn⟩, hd⟩

theorem coilCount_lt {n : BitVec 48} (h : Within m n) (hne : n ≠ m) : coilCount m < coilCount n := by
  obtain ⟨i, hi⟩ : ∃ c : CoilNo, n.getLsbD c.val = true ∧ m.getLsbD c.val = false := by
    by_contra hall
    refine hne (BitVec.eq_of_getLsbD_eq fun i hi => ?_)
    by_cases hn : n.getLsbD i = true
    · have hm : m.getLsbD i ≠ false := fun hm => hall ⟨⟨i, hi⟩, hn, hm⟩
      rw [hn, Bool.eq_true_of_not_eq_false hm]
    · have hm : ¬ m.getLsbD i = true := fun hm => hn (h ⟨i, hi⟩ hm)
      rw [Bool.eq_false_of_not_eq_true hn, Bool.eq_false_of_not_eq_true hm]
  have hsub : maskCoils m ⊆ maskCoils n := fun c hc => mem_maskCoils.mpr (h c (mem_maskCoils.mp hc))
  have hnodup : ∀ m, (maskCoils m).Nodup := fun m => nodup_allCoils.filter _
  refine lt_of_le_of_ne ((hnodup m).subperm hsub).length_le fun heq => ?_
  have hperm := ((hnodup m).subperm hsub).perm_of_length_le heq.ge
  have hm := mem_maskCoils.mp (hperm.mem_iff.mpr (mem_maskCoils.mpr hi.1))
  rw [hi.2] at hm
  cases hm

theorem coilCount_le (m : BitVec 48) : coilCount m ≤ 48 := (List.length_filter_le _ _).trans (by simp [allCoils])

/-- Growth by neighbours: the whole set joined to its first coil. -/
theorem grow_spec : ∀ (k : Nat) {m : BitVec 48}, Within m q → Connected m c → 48 ≤ coilCount m + k →
    Within m (grow q k m) ∧ Within (grow q k m) q ∧ Connected (grow q k m) c ∧ Whole q (grow q k m)
  | 0, m, hq, hc, hk => by
    refine ⟨fun _ h => h, hq, hc, ?_⟩
    by_cases hfixed : spread m &&& q = m
    · exact whole_of_fixed hfixed
    · have hlt := coilCount_lt (within_grown hq) hfixed
      have hle := coilCount_le (spread m &&& q)
      omega
  | k + 1, m, hq, hc, hk => by
    unfold grow
    simp only
    split
    · next hfixed => exact ⟨fun _ h => h, hq, hc, whole_of_fixed hfixed⟩
    · next hgrows =>
      have hlt := coilCount_lt (within_grown hq) hgrows
      obtain ⟨hin, hrest⟩ := grow_spec k (m := spread m &&& q) (fun d hd => (mem_grown.mp hd).2) (hc.grown hq) (by omega)
      exact ⟨fun d hd => hin d (within_grown hq d hd), hrest⟩

end

end Sys2Proof.Machine

/-! PROOFS. The component list divides the qualifying coils (R30, R32 to R34). -/

namespace Sys2Proof.Machine

/-! ## Totals and centres (R33, R34) -/

theorem qualifies_iff (r : Coil) : r.qualifies = true ↔
    (∃ v, r.coverage = some v ∧ 4 ≤ v.val) ∧ (∀ left, r.state ≠ .off left) ∧ r.fault = false := by
  have hoff : r.state.isOff = false ↔ ∀ left, r.state ≠ .off left := by
    cases r.state <;> simp [CoilState.isOff]
  unfold Coil.qualifies
  simp only [Bool.and_eq_true, Bool.not_eq_true', hoff]
  cases r.coverage with
  | none => simp
  | some v =>
    simp only [Option.some.injEq, exists_eq_left']
    exact (and_congr_right' decide_eq_true_iff).trans and_comm

/-- A quotient rounded to the nearest integer lies within a half of it, a half upward. -/
theorem roundHalfUp_spec (num den : Nat) (h : den ≠ 0) :
    2 * roundHalfUp num den * den ≤ 2 * num + den ∧ 2 * num + den < (2 * roundHalfUp num den + 2) * den := by
  have hpos : 0 < 2 * den := by omega
  have hle := Nat.div_mul_le_self (2 * num + den) (2 * den)
  have hlt := Nat.lt_div_mul_add hpos (a := 2 * num + den)
  unfold roundHalfUp
  constructor
  · calc 2 * ((2 * num + den) / (2 * den)) * den = (2 * num + den) / (2 * den) * (2 * den) := by ring
      _ ≤ _ := hle
  · calc 2 * num + den < (2 * num + den) / (2 * den) * (2 * den) + 2 * den := hlt
      _ = _ := by ring

theorem coverOf_singleton (s : State) (c : CoilNo) : s.coverOf [c] = ((s.coil c).coverage.map (·.val)).getD 0 := by
  rw [coverOf_eq, List.map_singleton, List.sum_singleton]

/-! ## The division (R32) -/

/-- What the list says of one component, the qualifying coils being those of a mask. -/
structure IsComponent (s : State) (q : BitVec 48) (k : Component) : Prop where
  nonempty : k.coils ≠ []
  sorted : k.coils.Pairwise (· < ·)
  eq : k = s.componentOf k.coils
  qualify : ∀ c ∈ k.coils, q.getLsbD c.val = true
  whole : ∀ c ∈ k.coils, ∀ d, Neighbours c d → q.getLsbD d.val = true → d ∈ k.coils
  connected : ∀ c ∈ k.coils, ∀ d ∈ k.coils, Relation.ReflTransGen (fun a b => Neighbours a b ∧ b ∈ k.coils) c d

/-- What is left to divide: coils of the seeds, closed under neighbours among the qualifying ones. -/
structure LeftOver (q left : BitVec 48) (seeds : List CoilNo) : Prop where
  sorted : seeds.Pairwise (· < ·)
  seeds : ∀ c : CoilNo, left.getLsbD c.val = true → c ∈ seeds
  within : Within left q
  whole : Whole q left

theorem joined_back {m : BitVec 48} {a b : CoilNo} (h : Relation.ReflTransGen (Joined m) a b) : Relation.ReflTransGen (Joined m) b a := by
  induction h with
  | refl => exact .refl
  | tail _ hstep ih =>
    obtain ⟨hn, hx, hy⟩ := hstep
    exact .head ⟨hn.symm, hy, hx⟩ ih

theorem connected_pair {m : BitVec 48} {c a b : CoilNo} (h : Connected m c) (ha : m.getLsbD a.val = true) (hb : m.getLsbD b.val = true) :
    Relation.ReflTransGen (fun x y => Neighbours x y ∧ y ∈ maskCoils m) a b := by
  exact Relation.ReflTransGen.mono (fun x y ⟨hn, _, hy⟩ => ⟨hn, mem_maskCoils.mpr hy⟩) _ _ ((joined_back (h a ha)).trans (h b hb))

section
variable {s : State} {q left m : BitVec 48} {seeds : List CoilNo} {c : CoilNo}

theorem coilMask_single (h : left.getLsbD c.val = true) : Within (coilMask [c]) left ∧ Connected (coilMask [c]) c := by
  have hone : ∀ d : CoilNo, (coilMask [c]).getLsbD d.val = true ↔ d = c := fun d => by rw [mem_coilMask, List.mem_singleton]
  exact ⟨fun d hd => (hone d).mp hd ▸ h, fun d hd => (hone d).mp hd ▸ .refl⟩

/-- The set that grows from a seed. -/
theorem grown_spec (h : left.getLsbD c.val = true) : (grow left 48 (coilMask [c])).getLsbD c.val = true ∧
    Within (grow left 48 (coilMask [c])) left ∧ Connected (grow left 48 (coilMask [c])) c ∧ Whole left (grow left 48 (coilMask [c])) := by
  obtain ⟨hin, hconn⟩ := coilMask_single h
  obtain ⟨hgrown, hrest⟩ := grow_spec 48 hin hconn (by omega)
  exact ⟨hgrown c ((mem_coilMask [c] c).mpr List.mem_cons_self), hrest⟩

theorem LeftOver.skip (h : LeftOver q left (c :: seeds)) (hc : ¬ left.getLsbD c.val = true) : LeftOver q left seeds where
  sorted := (List.pairwise_cons.mp h.sorted).2
  seeds d hd := (List.mem_cons.mp (h.seeds d hd)).resolve_left fun e => hc (e ▸ hd)
  within := h.within
  whole := h.whole

theorem LeftOver.take (h : LeftOver q left (c :: seeds)) (hc : m.getLsbD c.val = true) (hw : Whole left m) :
    LeftOver q (left &&& ~~~m) seeds := by
  have hbit : ∀ d : CoilNo, (left &&& ~~~m).getLsbD d.val = true ↔ left.getLsbD d.val = true ∧ ¬ m.getLsbD d.val = true := fun d => by
    rw [BitVec.getLsbD_and, BitVec.getLsbD_not, decide_eq_true d.isLt, Bool.true_and, Bool.and_eq_true, Bool.not_eq_true',
      Bool.not_eq_true]
  refine ⟨(List.pairwise_cons.mp h.sorted).2, fun d hd => ?_, fun d hd => h.within d ((hbit d).mp hd).1, fun a d ha hn hd => ?_⟩
  · obtain ⟨hl, hnot⟩ := (hbit d).mp hd
    exact (List.mem_cons.mp (h.seeds d hl)).resolve_left fun e => hnot (e ▸ hc)
  · obtain ⟨hl, hnot⟩ := (hbit a).mp ha
    exact (hbit d).mpr ⟨h.whole a d hl hn hd, fun hdm => hnot (hw d a hdm hn.symm hl)⟩

theorem isComponent_grown (h : LeftOver q left (c :: seeds)) (hc : m.getLsbD c.val = true) (hm : Within m left)
    (hconn : Connected m c) (hw : Whole left m) : IsComponent s q (s.componentOf (maskCoils m)) where
  nonempty := List.ne_nil_of_mem (mem_maskCoils.mpr hc)
  sorted := show (maskCoils m).Pairwise (· < ·) from sorted_allCoils.filter _
  eq := rfl
  qualify d hd := h.within d (hm d (mem_maskCoils.mp hd))
  whole a ha d hn hd := mem_maskCoils.mpr (hw a d (mem_maskCoils.mp ha) hn (h.whole a d (hm a (mem_maskCoils.mp ha)) hn hd))
  connected _ ha _ hb := connected_pair hconn (mem_maskCoils.mp ha) (mem_maskCoils.mp hb)

/-- The first coil of a sorted list is the least. -/
theorem head_of_least {l : List CoilNo} (hs : l.Pairwise (· < ·)) (hc : c ∈ l) (hle : ∀ d ∈ l, c ≤ d) : l.head? = some c := by
  cases l with
  | nil => cases hc
  | cons x xs =>
    rcases List.mem_cons.mp hc with rfl | hx
    · rfl
    · exact absurd ((List.pairwise_cons.mp hs).1 c hx) (not_lt.mpr (hle x List.mem_cons_self))

theorem componentsFrom_spec (s : State) (q : BitVec 48) : ∀ (seeds : List CoilNo) {left : BitVec 48}, LeftOver q left seeds →
    (∀ c : CoilNo, left.getLsbD c.val = true → ∃ k ∈ s.componentsFrom seeds left, c ∈ k.coils) ∧
    (∀ k ∈ s.componentsFrom seeds left, IsComponent s q k ∧ ∀ c ∈ k.coils, left.getLsbD c.val = true) ∧
    (s.componentsFrom seeds left).Pairwise fun k m => k.coils.head? < m.coils.head? ∧ ∀ c ∈ k.coils, c ∉ m.coils
  | [], left, h => ⟨fun c hc => absurd (h.seeds c hc) List.not_mem_nil, fun _ hk => absurd hk List.not_mem_nil, List.Pairwise.nil⟩
  | c :: seeds, left, h => by
    unfold State.componentsFrom
    split
    · next hc =>
      obtain ⟨hcm, hm, hconn, hw⟩ := grown_spec hc
      generalize grow left 48 (coilMask [c]) = m at hcm hm hconn hw
      have hleft := h.take hcm hw
      obtain ⟨hall, hgood, hpair⟩ := componentsFrom_spec s q seeds hleft
      have hbit : ∀ d : CoilNo, (left &&& ~~~m).getLsbD d.val = true → left.getLsbD d.val = true ∧ m.getLsbD d.val = false := fun d hd => by
        rw [BitVec.getLsbD_and, BitVec.getLsbD_not, Bool.and_eq_true, Bool.and_eq_true, Bool.not_eq_true'] at hd
        exact ⟨hd.1, hd.2.2⟩
      have hfirst : (maskCoils m).head? = some c := head_of_least (sorted_allCoils.filter _) (mem_maskCoils.mpr hcm) fun d hd => by
        rcases List.mem_cons.mp (h.seeds d (hm d (mem_maskCoils.mp hd))) with rfl | hd
        · exact le_rfl
        · exact ((List.pairwise_cons.mp h.sorted).1 d hd).le
      refine ⟨fun d hd => ?_, fun k hk => ?_, List.pairwise_cons.mpr ⟨fun k hk => ?_, hpair⟩⟩
      · by_cases hdm : m.getLsbD d.val = true
        · exact ⟨_, List.mem_cons_self, mem_maskCoils.mpr hdm⟩
        · obtain ⟨k, hk, hdk⟩ := hall d (by
            rw [BitVec.getLsbD_and, BitVec.getLsbD_not, hd, Bool.eq_false_of_not_eq_true hdm, decide_eq_true d.isLt]
            rfl)
          exact ⟨k, List.mem_cons_of_mem _ hk, hdk⟩
      · rcases List.mem_cons.mp hk with rfl | hk
        · exact ⟨isComponent_grown h hcm hm hconn hw, fun d hd => hm d (mem_maskCoils.mp hd)⟩
        · obtain ⟨hk, hin⟩ := hgood k hk
          exact ⟨hk, fun d hd => (hbit d (hin d hd)).1⟩
      · obtain ⟨hkgood, hin⟩ := hgood k hk
        refine ⟨?_, fun d hd hdk => ?_⟩
        · obtain ⟨x, xs, hx⟩ := List.exists_cons_of_ne_nil hkgood.nonempty
          have hxk : x ∈ k.coils := hx ▸ List.mem_cons_self
          have hcx : c < x := (List.pairwise_cons.mp h.sorted).1 x (hleft.seeds x (hin x hxk))
          rw [hx]
          show (maskCoils m).head? < some x
          rw [hfirst]
          exact hcx
        · have hno := (hbit d (hin d hdk)).2
          rw [mem_maskCoils.mp hd] at hno
          cases hno
    · next hc => exact componentsFrom_spec s q seeds (h.skip hc)

end

/-- The component list of a state. -/
theorem components_spec (s : State) :
    (∀ c, (s.coil c).qualifies = true → ∃ k ∈ s.components, c ∈ k.coils) ∧
    (∀ k ∈ s.components, IsComponent s (coilMask (allCoils.filter fun c => (s.coil c).qualifies)) k) ∧
    s.components.Pairwise fun k m => k.coils.head? < m.coils.head? ∧ ∀ c ∈ k.coils, c ∉ m.coils := by
  have hstart : LeftOver (coilMask (allCoils.filter fun c => (s.coil c).qualifies)) (coilMask (allCoils.filter fun c => (s.coil c).qualifies))
      allCoils := ⟨sorted_allCoils, fun c _ => mem_allCoils c, fun _ h => h, fun _ _ _ _ h => h⟩
  obtain ⟨hall, hgood, hpair⟩ := componentsFrom_spec s _ allCoils hstart
  exact ⟨fun c hc => hall c ((mem_coilMask _ c).mpr (List.mem_filter.mpr ⟨mem_allCoils c, hc⟩)), fun k hk => (hgood k hk).1, hpair⟩

/-- The components stand in the order of their first coils. -/
theorem components_sorted (s : State) : s.components.Pairwise fun k m => k.coils.head? < m.coils.head? :=
  (components_spec s).2.2.imp And.left

/-- Settles O54: the division of the qualifying coils, with the arithmetic of totals and centres. -/
theorem componentsPartition : Obligations.ComponentsPartition := by
  unfold Obligations.ComponentsPartition
  refine ⟨qualifies_iff, fun s cs => ?_, fun c => ⟨by unfold row column; omega, by unfold column; omega⟩, fun s => ?_⟩
  · intro cover total nearest
    have htotal : s.coverOf cs = total := coverOf_eq s cs
    have hmoment : ∀ axis, s.moment axis cs = (cs.map fun c => cover c * axis c).sum := fun axis => by
      simp only [State.moment, coverOf_singleton]
      rfl
    refine ⟨rfl, htotal, fun hne => ?_⟩
    simp only [State.componentOf, State.centreOf, htotal, hmoment, nearest]
    exact ⟨roundHalfUp_spec _ _ hne, roundHalfUp_spec _ _ hne⟩
  · obtain ⟨hall, hgood, hpair⟩ := components_spec s
    have hqualify : ∀ c : CoilNo, (coilMask (allCoils.filter fun c => (s.coil c).qualifies)).getLsbD c.val = true ↔
        (s.coil c).qualifies = true := fun c => by
      rw [mem_coilMask, List.mem_filter]
      simp only [mem_allCoils, true_and]
    refine ⟨hall, fun k hk => ?_, hpair⟩
    have hcomp := hgood k hk
    exact ⟨hcomp.nonempty, hcomp.sorted, hcomp.eq, fun c hc => ⟨(hqualify c).mp (hcomp.qualify c hc), fun d hn hd =>
      hcomp.whole c hc d hn ((hqualify d).mpr hd)⟩, hcomp.connected⟩

end Sys2Proof.Machine

/-! PROOFS. The picks of the PRESENT pans, and how a component picked by several is divided (R44 to R47). -/

namespace Sys2Proof.Machine

/-! ## Lists in an order -/

/-- The first of an ordered list to pass a test. -/
theorem find?_sorted {α : Type} {r : α → α → Prop} (hr : ∀ a b, r a b → ¬ r b a) {p : α → Bool} : ∀ {l : List α} {x : α},
    l.Pairwise r → l.find? p = some x → ∀ y ∈ l, r y x → p y = false
  | a :: l, x, hl, h, y, hy, hyx => by
    obtain ⟨ha, hl⟩ := List.pairwise_cons.mp hl
    rw [List.find?_cons] at h
    cases hpa : p a with
    | true =>
      rw [hpa] at h
      cases Option.some.inj h
      rcases List.mem_cons.mp hy with rfl | hy
      · exact absurd hyx (hr _ _ hyx)
      · exact absurd hyx (hr _ _ (ha y hy))
    | false =>
      rw [hpa] at h
      rcases List.mem_cons.mp hy with rfl | hy
      · exact hpa
      · exact find?_sorted hr hl h y hy hyx

/-! ## Picks (R45) -/

section
variable {s : State} {comps : List Component} {p q : Pick}

theorem mem_picks : p ∈ s.picks comps ↔
    (s.pan p.slot).state = .present ∧ p.old = (s.pan p.slot).footprint ∧ pickFor p.old comps = some p.component := by
  obtain ⟨slot, old, component⟩ := p
  simp only [State.picks, List.mem_filterMap, mem_allSlots, true_and]
  constructor
  · rintro ⟨n, hn⟩
    split at hn
    · next hp =>
      obtain ⟨k, hk, he⟩ := Option.map_eq_some_iff.mp hn
      cases he
      exact ⟨hp, rfl, hk⟩
    · cases hn
  · rintro ⟨hp, hold, hk⟩
    refine ⟨slot, ?_⟩
    rw [if_pos hp, ← hold, hk]
    rfl

theorem picks_sorted (s : State) (comps : List Component) : (s.picks comps).Pairwise fun p q => p.slot < q.slot := by
  have hslot : ∀ (n : Slot) (p : Pick), (if (s.pan n).state = .present then
      (pickFor (s.pan n).footprint comps).map fun k => (⟨n, (s.pan n).footprint, k⟩ : Pick) else none) = some p → p.slot = n := fun n p h => by
    split at h
    · obtain ⟨_, _, rfl⟩ := Option.map_eq_some_iff.mp h
      rfl
    · cases h
  unfold State.picks
  refine List.Pairwise.filterMap _ (fun a b hab x hx y hy => ?_) sorted_allSlots
  rw [hslot a x hx, hslot b y hy]
  exact hab

theorem pick_unique (hp : p ∈ s.picks comps) (hq : q ∈ s.picks comps) (h : p.slot = q.slot) : p = q := by
  obtain ⟨slot, old, component⟩ := p
  obtain ⟨slot', old', component'⟩ := q
  obtain ⟨_, hold, hk⟩ := mem_picks.mp hp
  obtain ⟨_, hold', hk'⟩ := mem_picks.mp hq
  cases h
  cases hold.trans hold'.symm
  cases hk.symm.trans hk'
  rfl

/-! ## The pickers of a component (R46, R47) -/

/-- Another pick of the same component. -/
def Rivals (picks : List Pick) (p q : Pick) : Prop := q ∈ picks ∧ q ≠ p ∧ q.component = p.component

theorem mem_pickersOf {picks : List Pick} {k : Component} : q ∈ pickersOf picks k ↔ q ∈ picks ∧ q.component = k := by
  simp only [pickersOf, List.mem_filter, decide_eq_true_eq]

theorem pickersOf_sorted (s : State) (comps : List Component) (k : Component) :
    (pickersOf (s.picks comps) k).Pairwise fun p q => p.slot < q.slot := (picks_sorted s comps).filter _

theorem pickersOf_nodup (s : State) (comps : List Component) (k : Component) : (pickersOf (s.picks comps) k).Nodup :=
  (pickersOf_sorted s comps k).imp fun h he => absurd h (by rw [he]; exact lt_irrefl _)

theorem mem_pickers_iff_rival (hp : p ∈ s.picks comps) :
    q ∈ pickersOf (s.picks comps) p.component ↔ q = p ∨ Rivals (s.picks comps) p q := by
  rw [mem_pickersOf]
  by_cases hq : q = p
  · subst hq
    exact ⟨fun _ => .inl rfl, fun _ => ⟨hp, rfl⟩⟩
  · exact ⟨fun h => .inr ⟨h.1, hq, h.2⟩, fun h => (h.resolve_left hq).imp id And.right⟩

theorem pickers_length_one (hp : p ∈ s.picks comps) :
    (pickersOf (s.picks comps) p.component).length = 1 ↔ ∀ q, ¬ Rivals (s.picks comps) p q := by
  have hself : p ∈ pickersOf (s.picks comps) p.component := (mem_pickers_iff_rival hp).mpr (.inl rfl)
  constructor
  · intro h q hq
    obtain ⟨x, hx⟩ := List.length_eq_one_iff.mp h
    have hqx := (mem_pickers_iff_rival hp).mpr (.inr hq)
    rw [hx, List.mem_singleton] at hself hqx
    exact hq.2.1 (hqx.trans hself.symm)
  · intro h
    have hall : ∀ q ∈ pickersOf (s.picks comps) p.component, q = p := fun q hq =>
      ((mem_pickers_iff_rival hp).mp hq).resolve_right (h q)
    have hperm : (pickersOf (s.picks comps) p.component).Perm [p] :=
      (List.perm_ext_iff_of_nodup (pickersOf_nodup s comps _) (List.nodup_singleton p)).mpr fun q => by
        rw [List.mem_singleton]
        exact ⟨hall q, fun e => e ▸ hself⟩
    exact hperm.length_eq

theorem two_le_pickers (hp : p ∈ s.picks comps) :
    2 ≤ (pickersOf (s.picks comps) p.component).length ↔ ∃ q, Rivals (s.picks comps) p q := by
  have hpos := List.length_pos_of_mem ((mem_pickers_iff_rival hp).mpr (.inl rfl))
  have hone := not_congr (pickers_length_one hp)
  rw [not_forall] at hone
  simp only [not_not] at hone
  rw [← hone]
  omega

/-- Which pick a coil of a divided component goes to. -/
theorem coilPicker_iff (hp : p ∈ s.picks comps) (c : CoilNo) :
    coilPicker (pickersOf (s.picks comps) p.component) p.component c = some p.slot ↔
      (c ∈ p.old ∧ ∀ q, Rivals (s.picks comps) p q → q.slot < p.slot → c ∉ q.old) ∨
      (c ∉ p.old ∧ ∀ q, Rivals (s.picks comps) p q → c ∉ q.old ∧
        (overlap p.component.coils q.old < overlap p.component.coils p.old ∨
          (overlap p.component.coils q.old = overlap p.component.coils p.old ∧ p.slot < q.slot))) := by
  obtain ⟨k, hk⟩ : ∃ k, k = p.component := ⟨_, rfl⟩
  have hpickers : ∀ q, q ∈ pickersOf (s.picks comps) k ↔ q = p ∨ Rivals (s.picks comps) p q := fun q => hk ▸ mem_pickers_iff_rival hp
  have hself := (hpickers p).mpr (.inl rfl)
  have hrival : ∀ q, Rivals (s.picks comps) p q → q ∈ pickersOf (s.picks comps) k := fun q hq => (hpickers q).mpr (.inr hq)
  rw [← hk]
  unfold coilPicker
  cases hfind : (pickersOf (s.picks comps) k).find? fun p => decide (c ∈ p.old) with
  | some x =>
    have hx := List.mem_of_find?_eq_some hfind
    have hcx : c ∈ x.old := by simpa using List.find?_some hfind
    have hfirst := find?_sorted (r := fun p q : Pick => p.slot < q.slot) (fun _ _ => lt_asymm) (pickersOf_sorted s comps k) hfind
    simp only [Option.some.injEq]
    constructor
    · intro hslot
      have hxp : x = p := pick_unique (mem_pickersOf.mp hx).1 hp hslot
      refine .inl ⟨hxp ▸ hcx, fun q hq hlt => ?_⟩
      exact of_decide_eq_false (hfirst q (hrival q hq) (hxp ▸ hlt))
    · rintro (⟨hcp, hother⟩ | ⟨hcp, hother⟩)
      · by_contra hne
        have hxr : Rivals (s.picks comps) p x := ((hpickers x).mp hx).resolve_left fun h => hne (congrArg Pick.slot h)
        rcases lt_or_gt_of_ne hne with hlt | hgt
        · exact hother x hxr hlt hcx
        · exact absurd hcp (of_decide_eq_false (hfirst p hself hgt))
      · rcases (hpickers x).mp hx with rfl | hxr
        · exact absurd hcx hcp
        · exact absurd hcx (hother x hxr).1
  | none =>
    have hnone : ∀ q ∈ pickersOf (s.picks comps) k, c ∉ q.old := fun q hq => by simpa using List.find?_eq_none.mp hfind q hq
    have hmain := bestBy_key_iff (key := fun q : Pick => overlap k.coils q.old) (r := fun p q : Pick => p.slot < q.slot)
      (fun _ _ => lt_asymm) (pickersOf_sorted s comps k) (x := p)
    have hslot : (mainPicker (pickersOf (s.picks comps) k) k).map (·.slot) = some p.slot ↔
        mainPicker (pickersOf (s.picks comps) k) k = some p := by
      rw [Option.map_eq_some_iff]
      constructor
      · rintro ⟨y, hy, he⟩
        rw [hy, pick_unique (mem_pickersOf.mp (bestBy_mem hy)).1 hp he]
      · exact fun h => ⟨p, h, rfl⟩
    refine hslot.trans (hmain.trans ?_)
    constructor
    · exact fun ⟨_, hbest⟩ => .inr ⟨hnone p hself, fun q hq => ⟨hnone q (hrival q hq), hbest q (hrival q hq) hq.2.1⟩⟩
    · rintro (⟨hcp, _⟩ | ⟨_, hbest⟩)
      · exact absurd hcp (hnone p hself)
      · exact ⟨hself, fun q hq hne => (hbest q (((hpickers q).mp hq).resolve_left hne)).2⟩

end

end Sys2Proof.Machine

/-! PROOFS. A footprint evaluation, step by step (R36, R44 to R48). -/

namespace Sys2Proof.Machine

/-! ## Edits of different slots -/

theorem withPans_withPans (s : State) (f k : Slot → Pan) : (s.withPans f).withPans k = s.withPans k := by
  simp only [withPans_eq]

theorem forEach_append {α : Type} (work : α → Op) : ∀ (l r : List α) (s : State),
    forEach work (l ++ r) s = (forEach work l s).andThen (forEach work r)
  | [], _, _ => rfl
  | a :: l, r, s => by
    rw [List.cons_append, forEach, forEach]
    cases work a s with
    | ok t => exact forEach_append work l r t
    | safe v => rfl

theorem forEach_map {α β : Type} (f : α → β) (work : β → Op) : ∀ (l : List α) (s : State),
    forEach work (l.map f) s = forEach (fun a => work (f a)) l s
  | [], _ => rfl
  | a :: l, s => by
    rw [List.map_cons, forEach, forEach]
    exact congrArg (work (f a) s).andThen (funext (forEach_map f work l))

/-- Work in turn on the lists of a list's members is work in turn on the pairs. -/
theorem forEach_flatMap {α β : Type} (g : α → List β) (work : α → β → Op) : ∀ (l : List α) (s : State),
    forEach (fun a => forEach (work a) (g a)) l s =
      forEach (fun x : α × β => work x.1 x.2) (l.flatMap fun a => (g a).map (Prod.mk a)) s
  | [], _ => rfl
  | a :: l, s => by
    rw [List.flatMap_cons, forEach_append, forEach_map, forEach]
    exact congrArg (forEach (work a) (g a) s).andThen (funext (forEach_flatMap g work l))

/-- Each slot is edited once, every check code being valid. -/
theorem forEach_editSlots {α : Type} {slot : α → Slot} {f : α → Pan → Pan} (hf : ∀ a p, p.codeOk = true → (f a p).codeOk = true) :
    ∀ (l : List α) {s : State}, l.Pairwise (fun a b => slot a ≠ slot b) → s.Sound →
      ∃ g : Slot → Pan, forEach (fun a => editPan (slot a) (f a)) l s = .ok (s.withPans g) ∧ (s.withPans g).Sound ∧
        (∀ a ∈ l, g (slot a) = f a (s.pan (slot a))) ∧ ∀ n, (∀ a ∈ l, slot a ≠ n) → g n = s.pan n
  | [], s, _, hs => ⟨s.pan, by rw [withPans_self]; rfl, by rw [withPans_self]; exact hs, nofun, fun _ _ => rfl⟩
  | a :: l, s, hl, hs => by
    obtain ⟨ha, hl⟩ := List.pairwise_cons.mp hl
    have hok := hf a _ (hs.pans (slot a))
    obtain ⟨g, hg, hsound, hmem, hother⟩ := forEach_editSlots hf l hl (hs.setPan (slot a) hok)
    rw [withPans_setPan] at hg hsound
    refine ⟨g, by rw [forEach, editPan_of_sound hs _ hok, Flow.ok_andThen, hg], hsound, fun b hb => ?_, fun n hn => ?_⟩
    · rcases List.mem_cons.mp hb with rfl | hb
      · rw [hother _ fun c hc => (ha c hc).symm, State.pan_setPan_self]
      · rw [hmem b hb, State.pan_setPan, if_neg (ha b hb).symm]
    · rw [hother n fun b hb => hn b (List.mem_cons_of_mem _ hb), State.pan_setPan, if_neg (hn a List.mem_cons_self).symm]

/-! ## Steps 2 and 3: the pans that picked (R46, R47) -/

/-- A divided component's part for a pick. -/
def shareOfPick (picks : List Pick) (p : Pick) : List CoilNo :=
  p.component.coils.filter fun c => decide (coilPicker (pickersOf picks p.component) p.component c = some p.slot)

section
variable {s : State} {comps : List Component}

theorem stepSole_of_sound (hs : s.Sound) : ∃ g : Slot → Pan, stepSole (s.picks comps) s = .ok (s.withPans g) ∧ (s.withPans g).Sound ∧
    (∀ p ∈ s.picks comps, (∀ q, ¬ Rivals (s.picks comps) p q) → g p.slot = (s.pan p.slot).placed p.component) ∧
    (∀ p ∈ s.picks comps, (∃ q, Rivals (s.picks comps) p q) → g p.slot = s.pan p.slot) ∧
    ∀ n, (∀ p ∈ s.picks comps, p.slot ≠ n) → g n = s.pan n := by
  have hapart : (s.picks comps).Pairwise fun p q => p.slot ≠ q.slot := (picks_sorted s comps).imp ne_of_lt
  obtain ⟨g, hg, hsound, hmem, hother⟩ := forEach_editSlots (slot := Pick.slot) (f := fun p => Pan.placed p.component) (fun _ _ h => h)
    ((s.picks comps).filter fun p => decide ((pickersOf (s.picks comps) p.component).length = 1)) (hapart.filter _) hs
  refine ⟨g, hg, hsound, fun p hp hno => ?_, fun p hp ⟨q, hq⟩ => ?_, fun n hn => hother n fun p hp => hn p (List.mem_filter.mp hp).1⟩
  · exact hmem p (List.mem_filter.mpr ⟨hp, decide_eq_true ((pickers_length_one hp).mpr hno)⟩)
  · refine hother p.slot fun x hx he => ?_
    obtain ⟨hx, hone⟩ := List.mem_filter.mp hx
    cases pick_unique hx hp he
    exact (pickers_length_one hp).mp (of_decide_eq_true hone) q hq

theorem stepShared_of_sound {t : State} (ht : t.Sound) (hcoils : ∀ cs, t.componentOf cs = s.componentOf cs) (hc : comps.Nodup)
    (hpick : ∀ p ∈ s.picks comps, p.component ∈ comps) : ∃ g : Slot → Pan,
    stepShared comps (s.picks comps) t = .ok (t.withPans g) ∧ (t.withPans g).Sound ∧
    (∀ p ∈ s.picks comps, (∃ q, Rivals (s.picks comps) p q) →
      g p.slot = (t.pan p.slot).placed (s.componentOf (shareOfPick (s.picks comps) p))) ∧
    (∀ p ∈ s.picks comps, (∀ q, ¬ Rivals (s.picks comps) p q) → g p.slot = t.pan p.slot) ∧
    ∀ n, (∀ p ∈ s.picks comps, p.slot ≠ n) → g n = t.pan n := by
  obtain ⟨several, hseveral⟩ : ∃ l, l = comps.filter fun k => decide (2 ≤ (pickersOf (s.picks comps) k).length) := ⟨_, rfl⟩
  obtain ⟨pairs, hpairs⟩ : ∃ l, l = several.flatMap fun k => (pickersOf (s.picks comps) k).map (Prod.mk k) := ⟨_, rfl⟩
  have hmemPairs : ∀ x : Component × Pick, x ∈ pairs ↔
      2 ≤ (pickersOf (s.picks comps) x.1).length ∧ x.1 ∈ comps ∧ x.2 ∈ s.picks comps ∧ x.2.component = x.1 := by
    rintro ⟨k, p⟩
    simp only [hpairs, hseveral, List.mem_flatMap, List.mem_map, List.mem_filter, decide_eq_true_eq, Prod.mk.injEq, mem_pickersOf]
    constructor
    · rintro ⟨a, ⟨ha, hlen⟩, q, ⟨hq, hk⟩, rfl, rfl⟩
      exact ⟨hlen, ha, hq, hk⟩
    · rintro ⟨hlen, hk, hp, hpk⟩
      exact ⟨k, ⟨hk, hlen⟩, p, ⟨hp, hpk⟩, rfl, rfl⟩
  have hapart : pairs.Pairwise fun x y => x.2.slot ≠ y.2.slot := by
    rw [hpairs, List.pairwise_flatMap]
    refine ⟨fun k _ => ?_, ?_⟩
    · rw [List.pairwise_map]
      exact (pickersOf_sorted s comps k).imp ne_of_lt
    · rw [hseveral]
      refine (hc.filter _).imp fun {a b} hab x hx y hy he => hab ?_
      obtain ⟨p, hp, rfl⟩ := List.mem_map.mp hx
      obtain ⟨q, hq, rfl⟩ := List.mem_map.mp hy
      obtain ⟨hpPick, rfl⟩ := mem_pickersOf.mp hp
      obtain ⟨hqPick, rfl⟩ := mem_pickersOf.mp hq
      exact congrArg Pick.component (pick_unique hpPick hqPick he)
  obtain ⟨g, hg, hsound, hmem, hother⟩ := forEach_editSlots (slot := fun x : Component × Pick => x.2.slot)
    (f := fun x => Pan.placed (t.componentOf (x.1.coils.filter fun c =>
      decide (coilPicker (pickersOf (s.picks comps) x.1) x.1 c = some x.2.slot)))) (fun _ _ h => h) pairs hapart ht
  have hwork : stepShared comps (s.picks comps) t = .ok (t.withPans g) := by
    rw [← hg, hpairs, hseveral]
    exact forEach_flatMap (pickersOf (s.picks comps)) (fun k p => editPan p.slot (Pan.placed (t.componentOf (k.coils.filter fun c =>
      decide (coilPicker (pickersOf (s.picks comps) k) k c = some p.slot))))) _ t
  refine ⟨g, hwork, hsound, fun p hp hr => ?_, fun p hp hno => ?_, fun n hn => hother n fun x hx => ?_⟩
  · have hin := (hmemPairs (p.component, p)).mpr ⟨(two_le_pickers hp).mpr hr, hpick p hp, hp, rfl⟩
    rw [hmem _ hin, hcoils]
    rfl
  · refine hother p.slot fun x hx he => ?_
    obtain ⟨hlen, _, hx, hk⟩ := (hmemPairs x).mp hx
    cases pick_unique hx hp he
    rw [← hk] at hlen
    obtain ⟨q, hq⟩ := (two_le_pickers hp).mp hlen
    exact hno q hq
  · obtain ⟨_, _, hpick, _⟩ := (hmemPairs x).mp hx
    exact hn x.2 hpick

end

end Sys2Proof.Machine

/-! PROOFS. The pans that picked nothing, and the steps of an evaluation in a row (R36, R44 to R48). -/

namespace Sys2Proof.Machine

/-! ## Step 4: the pans that picked nothing (R48) -/

/-- A state that differs from another in its pans and its queue only. -/
def PansPosts (s x : State) : Prop := x = { s with pans := x.pans, events := x.events, eventsLost := x.eventsLost }

/-- The event of a pan that goes LOST. -/
def State.panLostEvent (s : State) (n : Slot) : Event :=
  ⟨.panLost, s.now % 65536, some ⟨n, some (s.pan n).tag⟩, none, none, none⟩

/-- The pan of a slot goes LOST, and its event is posted. -/
def State.loses (x : State) (n : Slot) : State :=
  (x.setPan n ((x.pan n).toLost x.params.lostTime)).postEvent (x.panLostEvent n)

/-- What step 4 does at one slot. -/
def stepLostSlot (picks : List Pick) (n : Slot) : Op := fun s =>
  if (s.pan n).state = .present ∧ (picks.all fun p => decide (p.slot ≠ n)) = true then
    (editPan n (Pan.toLost s.params.lostTime) s).andThen fun s => .ok (s.postPan .panLost (s.panId n))
  else .ok s

theorem stepLost_eq (picks : List Pick) : stepLost picks = forEach (stepLostSlot picks) allSlots := rfl

/-- Step 4 has still to visit the slots of the list, and posted what the second state tells. -/
structure LostReads (s : State) (picks : List Pick) (x told : State) (l : List Slot) : Prop where
  sound : x.Sound
  only : PansPosts s x
  pan : ∀ n ∈ l, (∀ p ∈ picks, p.slot ≠ n) → x.pan n = s.pan n
  state : ∀ n ∈ l, (x.pan n).state = (s.pan n).state
  queue : SameQueue x told

section
variable {s x told : State} {picks : List Pick} {n : Slot} {l : List Slot}

theorem pansPosts_loses (h : PansPosts s x) (n : Slot) : PansPosts s (x.loses n) := by
  unfold PansPosts State.loses at *
  rw [postEvent_eq, h]
  rfl

theorem PansPosts.now (h : PansPosts s x) : x.now = s.now := by rw [h]

theorem PansPosts.params (h : PansPosts s x) : x.params = s.params := by rw [h]

theorem pan_loses (x : State) (n m : Slot) :
    (x.loses n).pan m = if m = n then (x.pan n).toLost x.params.lostTime else x.pan m := by
  rw [State.loses, State.pan_postEvent, State.pan_setPan]

theorem losing_slot (hx : x.Sound) (h : (x.pan n).state = .present ∧ ∀ p ∈ picks, p.slot ≠ n) :
    stepLostSlot picks n x = .ok (x.loses n) := by
  have hall : (picks.all fun p => decide (p.slot ≠ n)) = true := List.all_eq_true.mpr fun p hp => decide_eq_true (h.2 p hp)
  rw [stepLostSlot, if_pos ⟨h.1, hall⟩, editPan_of_sound hx n (f := Pan.toLost x.params.lostTime) (hx.pans n), Flow.ok_andThen, State.postPan,
    panId_setPan (p := (x.pan n).toLost x.params.lostTime) rfl]
  rfl

theorem LostReads.skip (h : LostReads s picks x told (n :: l)) : LostReads s picks x told l where
  sound := h.sound
  only := h.only
  pan m hm := h.pan m (List.mem_cons_of_mem _ hm)
  state m hm := h.state m (List.mem_cons_of_mem _ hm)
  queue := h.queue

theorem LostReads.lose (h : LostReads s picks x told (n :: l)) (hn : n ∉ l) (hnone : ∀ p ∈ picks, p.slot ≠ n) :
    LostReads s picks (x.loses n) (told.postEvent (s.panLostEvent n)) l where
  sound := sound_postEvent (h.sound.setPan n (p := (x.pan n).toLost x.params.lostTime) (h.sound.pans n)) _
  only := pansPosts_loses h.only n
  pan m hm hp := by rw [pan_loses, if_neg fun e : m = n => hn (e ▸ hm)]; exact h.pan m (List.mem_cons_of_mem _ hm) hp
  state m hm := by rw [pan_loses, if_neg fun e : m = n => hn (e ▸ hm)]; exact h.state m (List.mem_cons_of_mem _ hm)
  queue := by
    have hevent : x.panLostEvent n = s.panLostEvent n := by
      rw [State.panLostEvent, h.only.now, h.pan n List.mem_cons_self hnone]
      rfl
    rw [State.loses, hevent]
    exact SameQueue.postEvent (s := x.setPan n _) ⟨h.queue.now, h.queue.events, h.queue.lost⟩ _

/-- The slots of a list whose PRESENT pan is of no pick. -/
def State.losers (s : State) (picks : List Pick) (l : List Slot) : List Slot :=
  l.filter fun n => decide ((s.pan n).state = .present ∧ ∀ p ∈ picks, p.slot ≠ n)

theorem mem_losers : n ∈ s.losers picks l ↔ n ∈ l ∧ (s.pan n).state = .present ∧ ∀ p ∈ picks, p.slot ≠ n := by
  rw [State.losers, List.mem_filter, decide_eq_true_eq]

theorem stepLost_from : ∀ (l : List Slot) {x told : State}, l.Nodup → LostReads s picks x told l →
    ∃ y, forEach (stepLostSlot picks) l x = .ok y ∧ y.Sound ∧ PansPosts s y ∧
      SameQueue y ((s.losers picks l).foldl (fun t n => t.postEvent (s.panLostEvent n)) told) ∧
      (∀ n ∈ s.losers picks l, y.pan n = (s.pan n).toLost s.params.lostTime) ∧
      ∀ n, n ∉ s.losers picks l → y.pan n = x.pan n
  | [], x, told, _, h => ⟨x, rfl, h.sound, h.only, h.queue, nofun, fun _ _ => rfl⟩
  | n :: l, x, told, hl, h => by
    obtain ⟨hn, hl⟩ := List.nodup_cons.mp hl
    by_cases hlost : (s.pan n).state = .present ∧ ∀ p ∈ picks, p.slot ≠ n
    · have hread := h.pan n List.mem_cons_self hlost.2
      obtain ⟨y, hy, hsound, honly, hqueue, hin, hout⟩ := stepLost_from l hl (h.lose hn hlost.2)
      have hlosers : s.losers picks (n :: l) = n :: s.losers picks l := List.filter_cons_of_pos (decide_eq_true hlost)
      have hnot : n ∉ s.losers picks l := fun hm => hn (mem_losers.mp hm).1
      refine ⟨y, ?_, hsound, honly, ?_, fun m hm => ?_, fun m hm => ?_⟩
      · rw [forEach, losing_slot h.sound (hread ▸ hlost), Flow.ok_andThen]
        exact hy
      · rw [hlosers]
        exact hqueue
      · rcases List.mem_cons.mp (hlosers ▸ hm) with rfl | hm
        · rw [hout _ hnot, pan_loses, if_pos rfl, hread, h.only.params]
        · exact hin m hm
      · rw [hlosers, List.mem_cons, not_or] at hm
        rw [hout m hm.2, pan_loses, if_neg hm.1]
    · obtain ⟨y, hy, hsound, honly, hqueue, hin, hout⟩ := stepLost_from l hl h.skip
      have hlosers : s.losers picks (n :: l) = s.losers picks l := List.filter_cons_of_neg (by simpa using hlost)
      rw [hlosers]
      refine ⟨y, ?_, hsound, honly, hqueue, hin, hout⟩
      rw [forEach, stepLostSlot, if_neg, Flow.ok_andThen]
      · exact hy
      · rw [h.state n List.mem_cons_self, List.all_eq_true]
        exact fun hc => hlost ⟨hc.1, fun p hp => of_decide_eq_true (hc.2 p hp)⟩

end

end Sys2Proof.Machine

/-! PROOFS. The evaluation of a sound state (R36, R44 to R48). -/

namespace Sys2Proof.Machine

section
variable {s : State}

theorem componentOf_withPans (s : State) (f : Slot → Pan) (cs : List CoilNo) : (s.withPans f).componentOf cs = s.componentOf cs := by
  rw [withPans_eq]
  rfl

theorem components_nodup (s : State) : s.components.Nodup :=
  (components_sorted s).imp fun {k m} h (e : k = m) => head_lt_asymm k m h (e ▸ h)

theorem mem_picks_components {p : Pick} : p ∈ s.picks s.components ↔
    (s.pan p.slot).state = .present ∧ p.old = (s.pan p.slot).footprint ∧ IsPick p.old s.components p.component := by
  rw [mem_picks, pickFor_iff (components_sorted s)]

theorem unpickedOf_eq (comps : List Component) (picks : List Pick) :
    unpickedOf comps picks = comps.filter fun k => decide (∀ p ∈ picks, p.component ≠ k) := by
  refine List.filter_congr fun k _ => Bool.eq_iff_iff.mpr ?_
  rw [List.isEmpty_iff, List.eq_nil_iff_forall_not_mem, decide_eq_true_eq]
  exact forall_congr' fun p => by rw [mem_pickersOf, not_and]

/-! ## Steps 2 and 3 together -/

theorem placings_of_sound (hs : s.Sound) : ∃ g : Slot → Pan,
    (stepSole (s.picks s.components) s).andThen (stepShared s.components (s.picks s.components)) = .ok (s.withPans g) ∧
    (s.withPans g).Sound ∧
    (∀ p ∈ s.picks s.components, (∀ q, ¬ Rivals (s.picks s.components) p q) → g p.slot = (s.pan p.slot).placed p.component) ∧
    (∀ p ∈ s.picks s.components, (∃ q, Rivals (s.picks s.components) p q) →
      g p.slot = (s.pan p.slot).placed (s.componentOf (shareOfPick (s.picks s.components) p))) ∧
    ∀ n, (∀ p ∈ s.picks s.components, p.slot ≠ n) → g n = s.pan n := by
  obtain ⟨f, hf, hfSound, hfSole, hfShared, hfOther⟩ := stepSole_of_sound (comps := s.components) hs
  obtain ⟨g, hg, hgSound, hgShared, hgSole, hgOther⟩ := stepShared_of_sound hfSound (componentOf_withPans s f) (components_nodup s)
    fun p hp => (mem_picks_components.mp hp).2.2.mem
  rw [withPans_withPans] at hg hgSound
  refine ⟨g, by rw [hf, Flow.ok_andThen, hg], hgSound, fun p hp hno => ?_, fun p hp hr => ?_, fun n hn => ?_⟩
  · rw [hgSole p hp hno, pan_withPans, hfSole p hp hno]
  · rw [hgShared p hp hr, pan_withPans, hfShared p hp hr]
  · rw [hgOther n hn, pan_withPans, hfOther n hn]

/-- Step 4 of the evaluation, after the pans that picked are placed. -/
theorem stepLost_of_sound {g : Slot → Pan} {picks : List Pick} (hs : (s.withPans g).Sound)
    (hstate : ∀ n, (g n).state = (s.pan n).state) (hother : ∀ n, (∀ p ∈ picks, p.slot ≠ n) → g n = s.pan n) :
    ∃ y, stepLost picks (s.withPans g) = .ok y ∧ y.Sound ∧ PansPosts s y ∧
      SameQueue y ((s.losers picks allSlots).foldl (fun t n => t.postEvent (s.panLostEvent n)) s) ∧
      (∀ n ∈ s.losers picks allSlots, y.pan n = (s.pan n).toLost s.params.lostTime) ∧
      ∀ n, n ∉ s.losers picks allSlots → y.pan n = g n := by
  have hstart : LostReads s picks (s.withPans g) s allSlots := {
    sound := hs
    only := by rw [withPans_eq]; rfl
    pan := fun n _ hn => by rw [pan_withPans, hother n hn]
    state := fun n _ => by rw [pan_withPans, hstate n]
    queue := ⟨(now_withPans ..).symm, (events_withPans ..).symm, (eventsLost_withPans ..).symm⟩ }
  obtain ⟨y, hy, hsound, honly, hqueue, hin, hout⟩ := stepLost_from allSlots nodup_allSlots hstart
  refine ⟨y, by rw [stepLost_eq, hy], hsound, honly, hqueue, hin, fun n hn => by rw [hout n hn, pan_withPans]⟩

/-! ## The steps from the candidates on -/

theorem laterSteps_of_sound (hs : s.Sound) (unpicked : List Component) (picks : List Pick) : ∃ s2 s3 s4 s5 s6 t : State,
    stepCandidates unpicked s = .ok s2 ∧ stepConfirm s2.candidates [] s2 = .ok s3 ∧ stepOwners s3 = .ok s4 ∧
    stepWindows (stepMoved picks s4) = .ok s5 ∧ replanPass s5 = .ok s6 ∧ barredFrom allSlots [] s6 = .ok t ∧ t.Sound := by
  obtain ⟨s2, h2, _, hs2⟩ := (run_stepCandidates (D := fun _ => True) unpicked s).completes hs
  obtain ⟨s3, h3, _, hs3⟩ := (run_stepConfirm (D := fun _ => True) s2.candidates [] s2).completes hs2
  obtain ⟨s4, h4, _, hs4⟩ := (run_stepOwners s3 (holdsNone_all s3)).completes hs3
  have hmoved := (path_stepMoved (w := .tracking) (D := fun _ => True) picks s4).sound hs4
  obtain ⟨s5, h5, _, hs5⟩ := (run_stepWindowsFrom allSlots [] _ (holdsNone_all (stepMoved picks s4))).completes hmoved
  obtain ⟨s6, h6, _, hs6⟩ := (run_replanPass (w := .tracking) s5 (holdsNone_all s5)).completes hs5
  obtain ⟨t, ht, _, hst⟩ := (run_barredFrom allSlots [] s6 (holdsNone_all s6)).completes hs6
  exact ⟨s2, s3, s4, s5, s6, t, h2, h3, h4, h5, h6, ht, hst⟩

/-- A sound state passes the checks of the first step. -/
theorem evaluate_of_sound (hs : s.Sound) : evaluate s =
    ((stepSole (s.picks s.components) s).andThen (stepShared s.components (s.picks s.components))).andThen fun u =>
      (stepLost (s.picks s.components) u).andThen fun u =>
        (stepCandidates (unpickedOf s.components (s.picks s.components)) u).andThen fun u =>
          (stepConfirm u.candidates [] u).andThen fun u => (stepOwners u).andThen fun u =>
            (stepWindows (stepMoved (s.picks s.components) u)).andThen fun u => (replanPass u).andThen (barredFrom allSlots []) := by
  unfold evaluate
  rw [forEach_eq_self (checkCoil_of_sound hs), Flow.ok_andThen]
  change (forEach checkPan allSlots s).andThen _ = _
  rw [forEach_eq_self (checkPan_of_sound hs), Flow.ok_andThen, Flow.andThen_assoc]

end

/-- Settles O56: steps 2 to 4 place the pans that picked, step 4 drops the others, and the later steps complete. -/
theorem evaluationFindsThePans : Obligations.EvaluationFindsThePans := by
  unfold Obligations.EvaluationFindsThePans
  intro s hs
  obtain ⟨g, hplaced, hgSound, hsole, hshared, hother⟩ := placings_of_sound hs
  obtain ⟨picks, hpicks⟩ : ∃ l, l = s.picks s.components := ⟨_, rfl⟩
  have hmem : ∀ p, p ∈ picks ↔ _ := fun p => hpicks ▸ mem_picks_components (s := s) (p := p)
  have heval := evaluate_of_sound hs
  have hrival := fun p (hp : p ∈ picks) => coilPicker_iff (hpicks ▸ hp)
  have hsorted := picks_sorted s s.components
  rw [← hpicks] at hplaced hsole hshared hother heval hsorted
  have hslot : ∀ n, (∃ p ∈ picks, p.slot = n) ∨ ∀ p ∈ picks, p.slot ≠ n := fun n => by
    by_cases h : ∃ p ∈ picks, p.slot = n
    · exact .inl h
    · exact .inr fun p hp e => h ⟨p, hp, e⟩
  have hstate : ∀ n, (g n).state = (s.pan n).state := fun n => by
    rcases hslot n with ⟨p, hp, rfl⟩ | hn
    · by_cases hr : ∃ q, Rivals picks p q
      · rw [hshared p hp hr]
        rfl
      · rw [hsole p hp (not_exists.mp hr)]
        rfl
    · rw [hother n hn]
  obtain ⟨s1, h1, hs1, honly, hqueue, hlost, hkept⟩ := stepLost_of_sound hgSound hstate hother
  obtain ⟨s2, s3, s4, s5, s6, t, h2, h3, h4, h5, h6, ht, hst⟩ := laterSteps_of_sound hs1 (unpickedOf s.components picks) picks
  have hpicked : ∀ p ∈ picks, s1.pan p.slot = g p.slot := fun p hp => hkept _ fun hl => (mem_losers.mp hl).2.2 p hp rfl
  have hdone : evaluate s = .ok t := by
    rw [heval, hplaced, Flow.ok_andThen, h1, Flow.ok_andThen, h2, Flow.ok_andThen, h3, Flow.ok_andThen, h4, Flow.ok_andThen, h5,
      Flow.ok_andThen, h6, Flow.ok_andThen, ht]
  rw [unpickedOf_eq] at h2
  refine ⟨picks, s1, s2, s3, s4, s5, s6, t, hdone, hst, hs1, h2, h3, h4, h5, h6, ht, hsorted, hmem, ⟨?_, hlost⟩,
    fun n hn => ?_, fun p hp => ⟨fun hno => ?_, fun hr => ?_⟩⟩
  · rw [honly]
    exact congrArg₂ (fun e b => { s with pans := s1.pans, events := e, eventsLost := b }) hqueue.events.symm hqueue.lost.symm
  · rw [hkept n fun hl => hn (mem_losers.mp hl).2.1]
    exact hother n fun p hp e => hn (e ▸ ((hmem p).mp hp).1)
  · rw [hpicked p hp, hsole p hp hno]
    rfl
  · refine ⟨shareOfPick picks p, ?_, fun c => ?_, ?_⟩
    · exact (((components_spec s).2.1 _ ((hmem p).mp hp).2.2.mem).sorted).filter _
    · rw [shareOfPick, List.mem_filter, decide_eq_true_eq, hpicks, hrival p hp c]
      rfl
    · rw [hpicked p hp, hshared p hp hr]
      rfl

end Sys2Proof.Machine
